-- ==== Sys2Proof/Word.lean ====
section
/-! DEFINITION. The words of the Zargil Z9: scalar words, lanes, bytes, vector values and masks (R22, R120). -/

namespace Sys2Proof

/-- A 64-bit scalar value (R22). -/
abbrev Word := BitVec 64

/-- A byte of memory. -/
abbrev Byte := BitVec 8

/-- One 32-bit lane of a vector value (R22). -/
abbrev Lane := BitVec 32

/-- The 128 lanes of a vector value, lane `l` in bits `32*l+31 .. 32*l` (R120). -/
abbrev Lanes := BitVec 4096

/-- A lane mask, bit `l` for lane `l` (R27, R123). -/
abbrev Mask := BitVec 128

/-- A format tag (R94). -/
abbrev Tag := BitVec 6

end Sys2Proof
end

