-- ==== Sys2Proof/Syntax.lean ====
section
/-! DEFINITION. The steps of the Zargil Z9, one constructor for each row of spec/opcode_table.json, and the data that
steps from outside carry (management messages, Callote commands, frames, packets). -/

namespace Sys2Proof

/-- A message of the management port: key index, counter, body and signature (R300), and the address and port that it comes from
(R301). `pub` is the owner public key that CC3 has for
the key index: the fuses hold its hash only (R295), and no rule says how CC3 comes by it, so it comes with the message (log 14). -/
structure Msg where
  key : BitVec 8
  counter : BitVec 64
  body : List Byte
  sig : List Byte
  pub : List Byte
  source : BitVec 144
  deriving DecidableEq, Repr

/-- A Dratrix frame (R203): the fields of its header, its payload, and its check as it reaches the receiving hub. -/
structure Frame where
  number : BitVec 32
  live : BitVec 16
  core : BitVec 9
  sent : Bool
  poison : BitVec 32
  payload : Lanes
  check : BitVec 32
  deriving DecidableEq, Repr

/-- What a scheduled packet carries (R169, R172): for an exchange beat, its first 16-byte part and how many it carries, at most the
eight of a flit. -/
inductive PacketKind where
  | loadData
  | storeData
  | exchangeBeat (part : BitVec 10) (count : BitVec 4)
  | message
  | frame
  deriving DecidableEq, Repr

/-- A scheduled packet that reaches an output port: the network, the router, its port, what it carries, the core that
issued the operation, and the operation's place in the agenda (R172). -/
structure Packet where
  bulk : Bool
  router : BitVec 6
  port : BitVec 5
  kind : PacketKind
  core : BitVec 9
  op : Nat
  deriving DecidableEq, Repr

/-- The kind of a launch that Callote requests (R10). -/
inductive LaunchKind where
  | timed
  | free
  | seeded
  deriving DecidableEq, Repr

/-- A launch as Callote requests it (R10, R91, R193, R319): a kernel of an image that has been loaded, the cores that it names in the order
written, and which of them lie on other packages; the parameter words, the ports of this package with their cores, and those of the
others with the packages' positions in the group. -/
structure LaunchReq where
  image : Nat
  kernel : Nat
  kind : LaunchKind
  cores : List (BitVec 9)
  away : List Bool
  ctx : Option (BitVec 2)
  budget : Option (BitVec 64)
  params : List (BitVec 6 × BitVec 64)
  ports : List (BitVec 9 × BitVec 6)
  far : List (BitVec 8 × BitVec 6)
  deriving DecidableEq, Repr

/-- Where Callote stops: a bundle of a context, in one iteration of loop level 0 or in any (R10, R319), or an instruction of a control
core (R245). -/
inductive StopPoint where
  | bundle (core : BitVec 9) (ctx : BitVec 2) (b : BitVec 13) (iter : Option (BitVec 32))
  | instr (cc : BitVec 2) (i : Nat)
  deriving DecidableEq, Repr

/-- The format of `print mem` (R319). -/
inductive MemFormat where
  | f32
  | x32
  | i32
  deriving DecidableEq, Repr

/-- What Callote's print shows (R10, R173, R198, R206, R245, R289, R319). -/
inductive PrintItem where
  | source (core : BitVec 9) (ctx : BitVec 2) (s : BitVec 10)
  | operand (core : BitVec 9) (ctx : BitVec 2) (unit : BitVec 5) (port : BitVec 3)
  | ccReg (cc : BitVec 2) (r : BitVec 5)
  | budg (core : BitVec 9) (ctx : BitVec 2)
  | xcnt (core : BitVec 9) (ctx : BitVec 2)
  | flags (core : BitVec 9) (ctx : BitVec 2)
  | ctx (core : BitVec 9) (ctx : BitVec 2)
  | arr (core : BitVec 9) (ctx : BitVec 2)
  | ecnt (core : BitVec 9) (ctx : BitVec 2)
  | mx (core : BitVec 9)
  | mem (core : BitVec 9) (addr : BitVec 48) (words : Nat) (fmt : MemFormat)
  | gstat
  | port (p : BitVec 6)
  | net (bulk : Bool) (router : BitVec 6) (port : BitVec 5)
  | spare (router : BitVec 5)
  | launch (l : BitVec 64)
  | lastLaunch
  | colo (l : BitVec 64)
  | journal
  | kick
  | tko
  | conc (q : BitVec 8)
  | xlat (job : BitVec 16) (addr : BitVec 48)
  | stq (core : BitVec 9) (ctx : BitVec 2)
  | eng (core : BitVec 9) (ctx : BitVec 2)
  deriving DecidableEq, Repr

/-- What Callote watches (R10, R194). -/
inductive WatchKind where
  | xch (core : BitVec 9) (ctx : BitVec 2)
  | hold
  deriving DecidableEq, Repr

/-- A stated error that Callote's inject makes (R194, and the programs' sessions); a physical error of the same kind
(R70, R282, R283, R287) arrives as the same step. -/
inductive Injection where
  | tagMiss (core : BitVec 9) (ctx : BitVec 2) (bundle : BitVec 13) (expert : BitVec 16)
  | register (core : BitVec 9) (ctx : BitVec 2) (s : BitVec 10)
  | bundleFetch (core : BitVec 9) (bundle : BitVec 13)
  | memoryPart (core : BitVec 9) (addr : BitVec 48)
  | selfTestFail (core : BitVec 9)
  deriving DecidableEq, Repr

/-- The steps of the part: one constructor for each row of spec/opcode_table.json, first those that carry a word. An event or
an outside step carries nothing here: what it acts on is `State.cause`. -/
inductive Instr where
  /-- BUNDLE_ISSUE (R29): A context issues one 256-bit bundle: guards and sources are read, writes are made, triggers start, then the beat and control slots act. -/
  | bundleIssue (b : BitVec 256)
  /-- CHECKPOINT (R213): A CK bundle waits until nothing of its context is in flight, then issues and snapshots the region state. -/
  | checkpoint (b : BitVec 256)
  /-- MOVE (R27): Carries one value from a source to a register, port or trigger. -/
  | move (g : BitVec 4) (s : BitVec 10) (d : BitVec 10)
  /-- ADD (R40): z := a + t mod 2^64 at +1. -/
  | add (g : BitVec 4) (s : BitVec 10) (u : BitVec 1)
  /-- SUB (R40): z := a - t mod 2^64. -/
  | sub (g : BitVec 4) (s : BitVec 10) (u : BitVec 1)
  /-- AND (R40): z := a AND t. -/
  | and (g : BitVec 4) (s : BitVec 10) (u : BitVec 1)
  /-- OR (R40): z := a OR t. -/
  | or (g : BitVec 4) (s : BitVec 10) (u : BitVec 1)
  /-- XOR (R40): z := a XOR t. -/
  | xor (g : BitVec 4) (s : BitVec 10) (u : BitVec 1)
  /-- ANDN (R40): z := a AND NOT t. -/
  | andn (g : BitVec 4) (s : BitVec 10) (u : BitVec 1)
  /-- SHL (R40): z := a << t[5:0]. -/
  | shl (g : BitVec 4) (s : BitVec 10) (u : BitVec 1)
  /-- SHR (R40): z := a shifted right logically by t[5:0]. -/
  | shr (g : BitVec 4) (s : BitVec 10) (u : BitVec 1)
  /-- SAR (R40): z := a shifted right arithmetically by t[5:0]. -/
  | sar (g : BitVec 4) (s : BitVec 10) (u : BitVec 1)
  /-- MIN (R40): z := the signed lesser of a and t. -/
  | min (g : BitVec 4) (s : BitVec 10) (u : BitVec 1)
  /-- MAX (R40): z := the signed greater of a and t. -/
  | max (g : BitVec 4) (s : BitVec 10) (u : BitVec 1)
  /-- MINU (R40): z := the unsigned lesser of a and t. -/
  | minu (g : BitVec 4) (s : BitVec 10) (u : BitVec 1)
  /-- MAXU (R40): z := the unsigned greater of a and t. -/
  | maxu (g : BitVec 4) (s : BitVec 10) (u : BitVec 1)
  /-- SEL (R40): z := a if b is nonzero, else t. -/
  | sel (g : BitVec 4) (s : BitVec 10) (u : BitVec 1)
  /-- PASS (R40): z := t. -/
  | pass (g : BitVec 4) (s : BitVec 10) (u : BitVec 1)
  /-- HI (R40): z := t[31:0] in the high half over a[31:0]. -/
  | hi (g : BitVec 4) (s : BitVec 10) (u : BitVec 1)
  /-- CEQ (R41): z := 1 if a = t, else 0. -/
  | ceq (g : BitVec 4) (s : BitVec 10) (u : BitVec 1)
  /-- CNE (R41): z := 1 if a differs from t, else 0. -/
  | cne (g : BitVec 4) (s : BitVec 10) (u : BitVec 1)
  /-- CLT (R41): Signed a < t. -/
  | clt (g : BitVec 4) (s : BitVec 10) (u : BitVec 1)
  /-- CLTU (R41): Unsigned a < t. -/
  | cltu (g : BitVec 4) (s : BitVec 10) (u : BitVec 1)
  /-- CLE (R41): Signed a <= t. -/
  | cle (g : BitVec 4) (s : BitVec 10) (u : BitVec 1)
  /-- CLEU (R41): Unsigned a <= t. -/
  | cleu (g : BitVec 4) (s : BitVec 10) (u : BitVec 1)
  /-- CLZ (R41): Counts the leading zeros of t. -/
  | clz (g : BitVec 4) (s : BitVec 10) (u : BitVec 1)
  /-- CTZ (R41): Counts the trailing zeros of t. -/
  | ctz (g : BitVec 4) (s : BitVec 10) (u : BitVec 1)
  /-- POPC (R41): Counts the set bits of t. -/
  | popc (g : BitVec 4) (s : BitVec 10) (u : BitVec 1)
  /-- SX8 (R41): Sign-extends t from 8 bits. -/
  | sx8 (g : BitVec 4) (s : BitVec 10) (u : BitVec 1)
  /-- SX16 (R41): Sign-extends t from 16 bits. -/
  | sx16 (g : BitVec 4) (s : BitVec 10) (u : BitVec 1)
  /-- SX32 (R41): Sign-extends t from 32 bits. -/
  | sx32 (g : BitVec 4) (s : BitVec 10) (u : BitVec 1)
  /-- ZX32 (R41): Zero-extends t from 32 bits. -/
  | zx32 (g : BitVec 4) (s : BitVec 10) (u : BitVec 1)
  /-- BEXT (R41): Extracts a bit field of a at the position and width given in t. -/
  | bext (g : BitVec 4) (s : BitVec 10) (u : BitVec 1)
  /-- BINS (R41): Inserts b into a bit field of a. -/
  | bins (g : BitVec 4) (s : BitVec 10) (u : BitVec 1)
  /-- ADDS (R41): Signed add, saturated to 64 bits. -/
  | adds (g : BitVec 4) (s : BitVec 10) (u : BitVec 1)
  /-- MUL (R42): Low 64 bits of a × t, landing at +3. -/
  | mul (g : BitVec 4) (s : BitVec 10)
  /-- MULH (R42): High 64 bits of the signed product. -/
  | mulh (g : BitVec 4) (s : BitVec 10)
  /-- MULHU (R42): High 64 bits of the unsigned product. -/
  | mulhu (g : BitVec 4) (s : BitVec 10)
  /-- DIV (R43): Signed quotient at +18, with the defined special cases. -/
  | div (g : BitVec 4) (s : BitVec 10)
  /-- DIVU (R43): Unsigned quotient. -/
  | divu (g : BitVec 4) (s : BitVec 10)
  /-- REM (R43): Signed remainder. -/
  | rem (g : BitVec 4) (s : BitVec 10)
  /-- REMU (R43): Unsigned remainder. -/
  | remu (g : BitVec 4) (s : BitVec 10)
  /-- MIX (R42): z := mix(a, t) at +4. -/
  | mix (g : BitVec 4) (s : BitVec 10)
  /-- LD8 (R71): Loads a sign-extended byte at a + t. -/
  | ld8 (g : BitVec 4) (s : BitVec 10)
  /-- LD8U (R71): Loads a zero-extended byte. -/
  | ld8u (g : BitVec 4) (s : BitVec 10)
  /-- LD16 (R71): Loads sign-extended 16 bits. -/
  | ld16 (g : BitVec 4) (s : BitVec 10)
  /-- LD16U (R71): Loads zero-extended 16 bits. -/
  | ld16u (g : BitVec 4) (s : BitVec 10)
  /-- LD32 (R71): Loads sign-extended 32 bits. -/
  | ld32 (g : BitVec 4) (s : BitVec 10)
  /-- LD32U (R71): Loads zero-extended 32 bits. -/
  | ld32u (g : BitVec 4) (s : BitVec 10)
  /-- LD64 (R71): Loads 64 bits. -/
  | ld64 (g : BitVec 4) (s : BitVec 10)
  /-- ST8 (R71): Stores t[7:0] at a + b. -/
  | st8 (g : BitVec 4) (s : BitVec 10)
  /-- ST16 (R71): Stores 16 bits. -/
  | st16 (g : BitVec 4) (s : BitVec 10)
  /-- ST32 (R71): Stores 32 bits. -/
  | st32 (g : BitVec 4) (s : BitVec 10)
  /-- ST64 (R71): Stores 64 bits. -/
  | st64 (g : BitVec 4) (s : BitVec 10)
  /-- CAS (R72): Atomic compare-and-swap of a 64-bit carrel word. -/
  | cas (g : BitVec 4) (s : BitVec 10)
  /-- LDLIVE (R73): Reads a count clamped by a codex bound, with trap or deferral. -/
  | ldlive (g : BitVec 4) (s : BitVec 10)
  /-- VLD (R75): Loads 512 contiguous bytes into z. -/
  | vld (g : BitVec 4) (s : BitVec 10) (u : BitVec 1)
  /-- VLDP (R75): Loads 512 bytes and post-increments a by b. -/
  | vldp (g : BitVec 4) (s : BitVec 10) (u : BitVec 1)
  /-- VLDS (R75): Strided vector load. -/
  | vlds (g : BitVec 4) (s : BitVec 10) (u : BitVec 1)
  /-- VLDB (R75): Loads 64 bytes replicated into every cluster. -/
  | vldb (g : BitVec 4) (s : BitVec 10) (u : BitVec 1)
  /-- VGAT (R75): Gathers the active lanes through an index register. -/
  | vgat (g : BitVec 4) (s : BitVec 10) (u : BitVec 1)
  /-- VST (R75): Stores the active lanes of d. -/
  | vst (g : BitVec 4) (s : BitVec 10) (u : BitVec 1)
  /-- VSTP (R75): Stores and post-increments a. -/
  | vstp (g : BitVec 4) (s : BitVec 10) (u : BitVec 1)
  /-- VSTS (R75): Strided store of the active lanes. -/
  | vsts (g : BitVec 4) (s : BitVec 10) (u : BitVec 1)
  /-- VSCT (R75): Scatters the active lanes through an index register. -/
  | vsct (g : BitVec 4) (s : BitVec 10) (u : BitVec 1)
  /-- VSPL (R86): Starts a spill burst of a run of vector registers. -/
  | vspl (g : BitVec 4) (s : BitVec 10) (u : BitVec 1)
  /-- VFIL (R86): Starts a fill burst of a run of vector registers. -/
  | vfil (g : BitVec 4) (s : BitVec 10) (u : BitVec 1)
  /-- FADD (R126): FP32 a + t per lane. -/
  | fadd (g : BitVec 4) (s : BitVec 10) (u : BitVec 1)
  /-- FSUB (R126): FP32 a - t per lane. -/
  | fsub (g : BitVec 4) (s : BitVec 10) (u : BitVec 1)
  /-- FMUL (R126): FP32 a × t per lane. -/
  | fmul (g : BitVec 4) (s : BitVec 10) (u : BitVec 1)
  /-- FFMA (R126): FP32 a × b + t with one rounding. -/
  | ffma (g : BitVec 4) (s : BitVec 10) (u : BitVec 1)
  /-- FMIN (R126): FP32 minimum per lane. -/
  | fmin (g : BitVec 4) (s : BitVec 10) (u : BitVec 1)
  /-- FMAX (R126): FP32 maximum per lane. -/
  | fmax (g : BitVec 4) (s : BitVec 10) (u : BitVec 1)
  /-- FABS (R126): Clears the sign bit of each lane. -/
  | fabs (g : BitVec 4) (s : BitVec 10) (u : BitVec 1)
  /-- FNEG (R126): Inverts the sign bit of each lane. -/
  | fneg (g : BitVec 4) (s : BitVec 10) (u : BitVec 1)
  /-- FCMP (R127): FP32 compare under the condition in c, giving a lane mask. -/
  | fcmp (g : BitVec 4) (s : BitVec 10) (u : BitVec 1)
  /-- FCVTI (R98): FP32 to i32 in the mode c[1:0]. -/
  | fcvti (g : BitVec 4) (s : BitVec 10) (u : BitVec 1)
  /-- ICVTF (R98): i32 to FP32 with RNE. -/
  | icvtf (g : BitVec 4) (s : BitVec 10) (u : BitVec 1)
  /-- FSEL (R126): Per lane, selects a where b is nonzero, else t. -/
  | fsel (g : BitVec 4) (s : BitVec 10) (u : BitVec 1)
  /-- FRND (R98): Rounds to an integral FP32 value in mode c. -/
  | frnd (g : BitVec 4) (s : BitVec 10) (u : BitVec 1)
  /-- IADD (R128): i32 add mod 2^32. -/
  | iadd (g : BitVec 4) (s : BitVec 10) (u : BitVec 1)
  /-- ISUB (R128): i32 subtract. -/
  | isub (g : BitVec 4) (s : BitVec 10) (u : BitVec 1)
  /-- IMUL (R128): i32 multiply, low 32 bits. -/
  | imul (g : BitVec 4) (s : BitVec 10) (u : BitVec 1)
  /-- VAND (R128): Lanewise AND. -/
  | vand (g : BitVec 4) (s : BitVec 10) (u : BitVec 1)
  /-- VOR (R128): Lanewise OR. -/
  | vor (g : BitVec 4) (s : BitVec 10) (u : BitVec 1)
  /-- VXOR (R128): Lanewise XOR. -/
  | vxor (g : BitVec 4) (s : BitVec 10) (u : BitVec 1)
  /-- VSHL (R128): Lanewise shift left. -/
  | vshl (g : BitVec 4) (s : BitVec 10) (u : BitVec 1)
  /-- VSHR (R128): Lanewise logical shift right. -/
  | vshr (g : BitVec 4) (s : BitVec 10) (u : BitVec 1)
  /-- VSAR (R128): Lanewise arithmetic shift right. -/
  | vsar (g : BitVec 4) (s : BitVec 10) (u : BitVec 1)
  /-- IMIN (R128): Signed i32 minimum. -/
  | imin (g : BitVec 4) (s : BitVec 10) (u : BitVec 1)
  /-- IMAX (R128): Signed i32 maximum. -/
  | imax (g : BitVec 4) (s : BitVec 10) (u : BitVec 1)
  /-- ICMP (R128): i32 compare under the condition in c, giving a lane mask. -/
  | icmp (g : BitVec 4) (s : BitVec 10) (u : BitVec 1)
  /-- LBC (R129): Broadcasts one lane, globally or within each cluster. -/
  | lbc (g : BitVec 4) (s : BitVec 10) (u : BitVec 1)
  /-- LPERM (R129): Permutes lanes within each cluster. -/
  | lperm (g : BitVec 4) (s : BitVec 10) (u : BitVec 1)
  /-- XCL (R129): Rotates whole clusters. -/
  | xcl (g : BitVec 4) (s : BitVec 10) (u : BitVec 1)
  /-- LRED (R130): Reduces the active lanes within each cluster. -/
  | lred (g : BitVec 4) (s : BitVec 10) (u : BitVec 1)
  /-- VT_TRI (R131): Runs three chained stages of recipe i per lane, landing at +12. -/
  | vtTri (g : BitVec 4) (s : BitVec 10) (i : BitVec 4)
  /-- RCPA (R116): 12-bit reciprocal approximation. -/
  | rcpa (g : BitVec 4) (s : BitVec 10)
  /-- RSQA (R116): 12-bit reciprocal square root. -/
  | rsqa (g : BitVec 4) (s : BitVec 10)
  /-- RCPN (R117): Newton step for the reciprocal. -/
  | rcpn (g : BitVec 4) (s : BitVec 10)
  /-- RSQN (R117): Newton step for the reciprocal square root. -/
  | rsqn (g : BitVec 4) (s : BitVec 10)
  /-- EXP2A (R118): 2^t to 12 bits. -/
  | exp2a (g : BitVec 4) (s : BitVec 10)
  /-- LOG2A (R118): log2 t to 12 bits. -/
  | log2a (g : BitVec 4) (s : BitVec 10)
  /-- FSQRT (R118): Correctly rounded square root. -/
  | fsqrt (g : BitVec 4) (s : BitVec 10)
  /-- FDIV (R118): Correctly rounded division. -/
  | fdiv (g : BitVec 4) (s : BitVec 10)
  /-- FSCL (R118): a × 2^n. -/
  | fscl (g : BitVec 4) (s : BitVec 10)
  /-- FEXP (R118): Unbiased exponent as i32. -/
  | fexp (g : BitVec 4) (s : BitVec 10)
  /-- BMAX (R107): Chooses E9 block scales and counts. -/
  | bmax (g : BitVec 4) (s : BitVec 10)
  /-- QNT (R108): Quantises FP32 to K8 at the block scales, with underflow counts. -/
  | qnt (g : BitVec 4) (s : BitVec 10)
  /-- DQT (R136): Dequantises packed elements to FP32. -/
  | dqt (g : BitVec 4) (s : BitVec 10)
  /-- CVB (R136): Converts FP32 to B16. -/
  | cvb (g : BitVec 4) (s : BitVec 10)
  /-- CVF (R136): Converts B16 to FP32. -/
  | cvf (g : BitVec 4) (s : BitVec 10)
  /-- CVSB (R137): Converts FP32 to signed 8-bit integers at the block scales. -/
  | cvsb (g : BitVec 4) (s : BitVec 10)
  /-- CVUB (R137): Converts FP32 to unsigned 8-bit integers at the block scales. -/
  | cvub (g : BitVec 4) (s : BitVec 10)
  /-- FRET (R138): Turns expert identifiers into fret-plane words and per-course counts. -/
  | fret (g : BitVec 4) (s : BitVec 10)
  /-- PACK (R136): Clamps and packs i32 into sb or ub. -/
  | pack (g : BitVec 4) (s : BitVec 10)
  /-- UNPK (R136): Unpacks sb or ub into i32. -/
  | unpk (g : BitVec 4) (s : BitVec 10)
  /-- VTAG (R136): Retags a value. -/
  | vtag (g : BitVec 4) (s : BitVec 10)
  /-- XCH (R77): Checks, claims and starts a folio exchange of two locations. -/
  | xch (g : BitVec 4) (s : BitVec 10)
  /-- XCHC (R77): Folio exchange with shelf-mark checks. -/
  | xchc (g : BitVec 4) (s : BitVec 10)
  /-- XCHL (R77): Leaf exchange. -/
  | xchl (g : BitVec 4) (s : BitVec 10)
  /-- XCHLC (R77): Leaf exchange with mark checks on the containing folios. -/
  | xchlc (g : BitVec 4) (s : BitVec 10)
  /-- MARK (R82): Reads a folio's shelf mark and blank flag. -/
  | mark (g : BitVec 4) (s : BitVec 10)
  /-- VAC (R82): Makes a folio blank. -/
  | vac (g : BitVec 4) (s : BitVec 10)
  /-- SETM (R82): Gives a new mark to a folio that carries mark 0xFFFF_FFFF. -/
  | setm (g : BitVec 4) (s : BitVec 10)
  /-- XST (R82): Reads the exchange count and the number in flight. -/
  | xst (g : BitVec 4) (s : BitVec 10)
  /-- SIDX (R235): Issues an indexed-reduce command to a stack engine. -/
  | sidx (g : BitVec 4) (s : BitVec 10)
  /-- SRED (R236): Issues a pairwise tree-reduction command. -/
  | sred (g : BitVec 4) (s : BitVec 10)
  /-- STOPK (R237): Issues a top-k command. -/
  | stopk (g : BitVec 4) (s : BitVec 10)
  /-- RPFX (R238): Issues a route prefix command that forms per-expert offsets. -/
  | rpfx (g : BitVec 4) (s : BitVec 10)
  /-- RPRM (R239): Issues an in-place route permutation by leaf exchanges. -/
  | rprm (g : BitVec 4) (s : BitVec 10)
  /-- BCST (R191): Broadcasts carrel bytes into the vector registers of peer cores. -/
  | bcst (g : BitVec 4) (s : BitVec 10)
  /-- ARM (R190): Arms an arrival counter from an arm block. -/
  | arm (g : BitVec 4) (s : BitVec 10)
  /-- ECNT (R228): Reads an engine completion counter or the engine status word. -/
  | ecnt (g : BitVec 4) (s : BitVec 10)
  /-- RADD (R186): Integer add reduction into a gallery target. -/
  | radd (g : BitVec 4) (s : BitVec 10)
  /-- RMIN (R186): Signed minimum reduction. -/
  | rmin (g : BitVec 4) (s : BitVec 10)
  /-- RMAX (R186): Signed maximum reduction. -/
  | rmax (g : BitVec 4) (s : BitVec 10)
  /-- RAND (R186): AND reduction. -/
  | rand (g : BitVec 4) (s : BitVec 10)
  /-- ROR (R186): OR reduction. -/
  | ror (g : BitVec 4) (s : BitVec 10)
  /-- RXOR (R186): XOR reduction. -/
  | rxor (g : BitVec 4) (s : BitVec 10)
  /-- RFADD (R186): FP32 addend into a fixed-point cell. -/
  | rfadd (g : BitVec 4) (s : BitVec 10)
  /-- RRD (R187): Reads a reduction target's phase-start value. -/
  | rrd (g : BitVec 4) (s : BitVec 10)
  /-- RCLR (R187): Clears a reduction target's current value. -/
  | rclr (g : BitVec 4) (s : BitVec 10)
  /-- SEND (R204): Puts 512 bytes into the Dratrix frame starting at this position. -/
  | send (g : BitVec 4) (s : BitVec 10)
  /-- RECV (R205): Returns the frame whose window holds this position. -/
  | recv (g : BitVec 4) (s : BitVec 10)
  /-- SENDB (R188): Sends a 64-byte message to a core and context. -/
  | sendb (g : BitVec 4) (s : BitVec 10)
  /-- RECVB (R188): Removes the oldest message from the mailbox. -/
  | recvb (g : BitVec 4) (s : BitVec 10)
  /-- FBASE (R146): Sets a feed pipe's base and resets its progress. -/
  | fbase (g : BitVec 4) (s : BitVec 10)
  /-- FSTR (R146): Sets a feed pipe's stride. -/
  | fstr (g : BitVec 4) (s : BitVec 10)
  /-- FCDX (R145): Gives a pipe a codex and validates it. -/
  | fcdx (g : BitVec 4) (s : BitVec 10)
  /-- FPROG (R146): Sets a feed pipe's progress. -/
  | fprog (g : BitVec 4) (s : BitVec 10)
  /-- PBASE (R146): Sets the push pipe's base and resets its progress. -/
  | pbase (g : BitVec 4) (s : BitVec 10)
  /-- PSTR (R146): Sets the push pipe's stride. -/
  | pstr (g : BitVec 4) (s : BitVec 10)
  /-- ANCH (R146): Sets the anchor A. -/
  | anch (g : BitVec 4) (s : BitVec 10)
  /-- LIVE (R147): Sets a feed pipe's live count against its codex bound. -/
  | live (g : BitVec 4) (s : BitVec 10)
  /-- RESID (R148): Writes a course's residency record. -/
  | resid (g : BitVec 4) (s : BitVec 10)
  /-- SFST (R150): Reads the flags and residues of a sum-file entry. -/
  | sfst (g : BitVec 4) (s : BitVec 10)
  /-- GMODE (R149): Switches the array between forward and gradient mode. -/
  | gmode (g : BitVec 4) (s : BitVec 10)
  /-- MXST (R150): Reads one array status item. -/
  | mxst (g : BitVec 4) (s : BitVec 10)
  /-- TREC_READ (R278): Reads word t of the trap record. -/
  | trecRead (g : BitVec 4) (s : BitVec 10)
  /-- TREC_RESUME (R275): With t all ones, restores the saved state and resumes at the record's resume bundle. -/
  | trecResume (g : BitVec 4) (s : BitVec 10)
  /-- TREC_SKIP (R275): With t all ones minus one, skips the trapped bundle. -/
  | trecSkip (g : BitVec 4) (s : BitVec 10)
  /-- BUDG (R278): Reads the budget register. -/
  | budg (g : BitVec 4) (s : BitVec 10)
  /-- GCYC (R278): Reads the group count and the group status word. -/
  | gcyc (g : BitVec 4) (s : BitVec 10)
  /-- CTX (R279): Reads or writes one item of context state. -/
  | ctx (g : BitVec 4) (s : BitVec 10)
  /-- TRLD (R133): Writes a recipe table entry. -/
  | trld (g : BitVec 4) (s : BitVec 10)
  /-- SBASE (R88): Sets the spill overflow base and limit. -/
  | sbase (g : BitVec 4) (s : BitVec 10)
  /-- SEED (R278): Replaces the context's seed. -/
  | seed (g : BitVec 4) (s : BitVec 10)
  /-- LPARM (R10): Reads a launch parameter word. -/
  | lparm (g : BitVec 4) (s : BitVec 10)
  /-- NOP (R35): Does nothing. -/
  | nop (g : BitVec 4)
  /-- BR (R46): Relative branch. -/
  | br (g : BitVec 4) (o : BitVec 14)
  /-- CALL (R47): Relative call that saves a link word with the frame floor. -/
  | call (g : BitVec 4) (n : BitVec 6) (o : BitVec 14)
  /-- RET (R47): Checks the link word and returns, restoring the floor. -/
  | ret (g : BitVec 4) (n : BitVec 6)
  /-- JMPI (R48): Indirect jump. -/
  | jmpi (g : BitVec 4) (n : BitVec 6)
  /-- CALLI (R47): Indirect call. -/
  | calli (g : BitVec 4) (n : BitVec 6) (m : BitVec 6)
  /-- LIMM (R49): Forms the sign-extended long immediate #L. -/
  | limm (g : BitVec 4) (v : BitVec 22)
  /-- LIMMH (R49): Forms #L := v << 22. -/
  | limmh (g : BitVec 4) (v : BitVec 22)
  /-- LOOP (R57): Opens a hardware loop level with its count in a register. -/
  | loop (g : BitVec 4) (k : BitVec 2) (n : BitVec 6) (d : BitVec 10) (s : BitVec 3) (r : BitVec 1)
  /-- LOOPI (R57): Opens a hardware loop level with an immediate count. -/
  | loopi (g : BitVec 4) (k : BitVec 2) (c : BitVec 6) (d : BitVec 10) (s : BitVec 3) (r : BitVec 1)
  /-- BRK (R60): Leaves loop level k and every level inside it. -/
  | brk (g : BitVec 4) (k : BitVec 2)
  /-- MPUSH (R124): Pushes top AND M[n] onto the mask stack. -/
  | mpush (g : BitVec 4) (n : BitVec 3)
  /-- MPOP (R124): Pops the mask stack. -/
  | mpop (g : BitVec 4)
  /-- MINV (R124): Removes the lanes of M[n] from the top of the mask stack. -/
  | minv (g : BitVec 4) (n : BitVec 3)
  /-- MINV_ELSE (R124): Replaces the top with parent AND NOT top. -/
  | minvElse (g : BitVec 4)
  /-- BRNONE (R124): Branches if no lane of the top is set. -/
  | brnone (g : BitVec 4) (o : BitVec 14)
  /-- BRANY (R124): Branches if any lane of the top is set. -/
  | brany (g : BitVec 4) (o : BitVec 14)
  /-- WAIT_ENG (R50): Free context waits for an engine completion counter. -/
  | waitEng (g : BitVec 4) (e : BitVec 3) (n : BitVec 6)
  /-- WAIT_ARR (R50): Waits for an arrival counter to be done. -/
  | waitArr (g : BitVec 4) (k : BitVec 3)
  /-- WAIT_XCNT (R50): Waits for the exchange completion counter. -/
  | waitXcnt (g : BitVec 4) (n : BitVec 6)
  /-- WAIT_WEQ (R50): Waits until a carrel word equals a value. -/
  | waitWeq (g : BitVec 4) (n : BitVec 6) (m : BitVec 6)
  /-- WAIT_WNE (R50): Waits until a carrel word differs from a value. -/
  | waitWne (g : BitVec 4) (n : BitVec 6) (m : BitVec 6)
  /-- WAITC (R51): Holds the next bundle until the given group cycle. -/
  | waitc (g : BitVec 4) (n : BitVec 6)
  /-- PHASE_LAUNCH (R175): Phase boundary over the launch's contexts on this package. -/
  | phaseLaunch (g : BitVec 4) (w : BitVec 20)
  /-- PHASE_GROUP (R175): Phase boundary over every package of the sync group. -/
  | phaseGroup (g : BitVec 4) (w : BitVec 20)
  /-- TUNE (R200): Corrects schedule drift by plus or minus one cycle when a tune is due. -/
  | tune (g : BitVec 4)
  /-- CFENCE (R160): Holds the next bundle until earlier carrel accesses have landed. -/
  | cfence (g : BitVec 4)
  /-- SFENCE_ACQ (R234): Stacks acquire fence. -/
  | sfenceAcq (g : BitVec 4)
  /-- SFENCE_REL (R234): Stacks release fence. -/
  | sfenceRel (g : BitVec 4)
  /-- SFENCE_ACQ_REL (R234): Both stacks fences. -/
  | sfenceAcqRel (g : BitVec 4)
  /-- TRAP (R53): Software trap with a 16-bit code. -/
  | trap (g : BitVec 4) (c : BitVec 16)
  /-- SYSC (R54): Requests a service from the supervising control core. -/
  | sysc (g : BitVec 4) (s : BitVec 16)
  /-- HALT (R55): Ends the task's issue. -/
  | halt (g : BitVec 4)
  /-- YIELD (R52): Puts a free context behind the others of its priority. -/
  | yield (g : BitVec 4)
  /-- CKEND (R212): Ends a checkpoint region once its beats have landed. -/
  | ckend (g : BitVec 4)
  /-- PUSH (R153): Loads one weight row into a course. -/
  | push (g : BitVec 4) (c : BitVec 2) (row : BitVec 8)
  /-- FEED (R154): Feeds a row slot through the array with cell-op mac into a sum-file entry. -/
  | feed (g : BitVec 4) (p : BitVec 2) (e : BitVec 6) (acc : BitVec 1)
  /-- FEED_ABSD (R154): A feed whose cells contribute the absolute difference. -/
  | feedAbsd (g : BitVec 4) (p : BitVec 2) (e : BitVec 6) (acc : BitVec 1)
  /-- FEED_CMPS (R154): A feed whose entries take the maximum of the products. -/
  | feedCmps (g : BitVec 4) (p : BitVec 2) (e : BitVec 6) (acc : BitVec 1)
  /-- GFEED (R157): Gradient feed: adds x · dy into the course accumulators. -/
  | gfeed (g : BitVec 4) (p : BitVec 2)
  /-- DRAIN (R156): Checks residues and converts a sum-file entry to FP32. -/
  | drain (g : BitVec 4) (e : BitVec 6)
  /-- GDRAIN (R157): Checks and converts a row of gradient accumulators. -/
  | gdrain (g : BitVec 4) (c : BitVec 2) (k : BitVec 8)
  /-- CLR (R156): Clears a sum-file entry at +264. -/
  | clr (g : BitVec 4) (e : BitVec 6)
  /-- GCLR (R157): Clears every accumulator of a course. -/
  | gclr (g : BitVec 4) (c : BitVec 2)
  /-- ZLAUNCH (R265): Starts a loaded launch or returns a refusal code. -/
  | zlaunch (s : BitVec 5) (d : BitVec 5)
  /-- ZKICK (R243): Sets or clears a kick bit under the re-kick rule. -/
  | zkick (t : BitVec 5) (s : BitVec 5)
  /-- ZSCAN (R242): Finds the lowest set kick bit at or above rs1. -/
  | zscan (s : BitVec 5) (d : BitVec 5)
  /-- ZCANCEL (R266): Cancels the launches of a level. -/
  | zcancel (t : BitVec 5) (s : BitVec 5) (d : BitVec 5)
  /-- ZPREEMPT_HALT (R267): Halts a context and saves its image. -/
  | zpreemptHalt (t : BitVec 5) (s : BitVec 5) (d : BitVec 5)
  /-- ZPREEMPT_RESUME (R286): Restores a saved image onto a context as a free context. -/
  | zpreemptResume (t : BitVec 5) (s : BitVec 5) (d : BitVec 5)
  /-- ZRESET (R268): Resets one core. -/
  | zreset (s : BitVec 5) (d : BitVec 5)
  /-- ZJRNL (R262): Appends a journal entry. -/
  | zjrnl (s : BitVec 5) (d : BitVec 5)
  /-- ZCOLO (R251): Returns a launch status word or a level word. -/
  | zcolo (t : BitVec 5) (s : BitVec 5) (d : BitVec 5)
  /-- ZBUDGET (R269): Reads and writes a context's budget, resumes or kills a stopped context. -/
  | zbudget (t : BitVec 5) (s : BitVec 5) (d : BitVec 5)
  /-- ZFENCE (R270): Writes a queue's concordance hash once chaining has settled. -/
  | zfence (t : BitVec 5) (s : BitVec 5) (d : BitVec 5)
  /-- ZCTKO_LIVE (R244): A write of live with oos bits ends the takeover and releases the held signals. -/
  | zctkoLive (w : BitVec 32)
  /-- ZJHEAD_WRITE (R262): A write moves the journal head when the value lies within range. -/
  | zjheadWrite (w : BitVec 32)
  /-- ZXINV_WRITE (R292): A write withdraws a page from every core's translation cache and waits for its accesses. -/
  | zxinvWrite (w : BitVec 32)
  /-- ZTRAPQ_READ (R276): A read returns and removes one supervisor trap-queue entry. -/
  | ztrapqRead (w : BitVec 32)
  /-- REGISTER_WRITE (R255): A write to a control register with no behaviour of its own, such as zplim. -/
  | registerWrite (w : BitVec 32)
  /-- CONTROL_CORE_INSTRUCTION (R241): A control core executes one RV64IMAC instruction, including loads and stores that raise the address-misaligned exception when unaligned. -/
  | controlCoreInstruction (w : BitVec 32)
  /-- RESULT_LANDING (R30): An operation's result lands in its unit's latch at issue plus latency, or at completion for best-effort traffic. -/
  | resultLanding
  /-- SPILL_RECORD (R86): One 512-byte record of a burst issues at its cycle, checking limits and translation, and faults with prog if it cannot. -/
  | spillRecord
  /-- EXCHANGE_COMPLETION (R77): At +L an exchange, vac or setm completes: marks and blank flags move and xcnt counts it. -/
  | exchangeCompletion
  /-- ENGINE_ACQUIRE (R232): An engine command's acquire is satisfied and the command enters its engine's shadow set. -/
  | engineAcquire
  /-- ENGINE_COMMAND_START (R223): A shadowed command becomes current in the cycle after the previous command ends. -/
  | engineCommandStart
  /-- ENGINE_RELEASE (R233): After every result write is performed, the engine writes the flag word and increments the completion counter. -/
  | engineRelease
  /-- BROADCAST_DELIVERY (R192): A broadcast part arrives at a context and is accepted into its registers, or dropped and counted. -/
  | broadcastDelivery
  /-- REDUCTION_AT_SLICE (R186): A reduction or rclr arrives at its slice and applies the first-touch rule and its operation. -/
  | reductionAtSlice
  /-- MESSAGE_ARRIVAL (R188): A sendb message reaches its destination mailbox, or is dropped and counted. -/
  | messageArrival
  /-- MERGE_OVERRUN (R180): At c + W' - H with the boundary incomplete, the package requests a group hold and counts the overrun. -/
  | mergeOverrun
  /-- BOUNDARY_COMPLETE (R180): Merge and drain done: buffers emptied, claims released, the phase number incremented, and merge conflicts trapped. -/
  | boundaryComplete
  /-- BEAT_LANDING (R155): A push, feed, gfeed, clr or gclr takes effect on array state at its landing cycle. -/
  | beatLanding
  /-- RERUN_COMPARE (R218): At the end of rerun 2 the bundle counts and signatures are compared, and catch-up proceeds. -/
  | rerunCompare
  /-- HOLD_REQUEST (R209): A package requests a group hold that will freeze the counts at F = r + H. -/
  | holdRequest
  /-- HOLD_RELAY (R209): A package relays a received hold request 12 cycles after receipt. -/
  | holdRelay
  /-- COUNT_FREEZE (R209): The counts reach F and freeze on every package. -/
  | countFreeze
  /-- END_NOTICE (R209): A requesting package ends its request with a notice naming a length D. -/
  | endNotice
  /-- HOLD_RESUME (R209): The counts resume on the same clock everywhere once every request is over. -/
  | holdResume
  /-- STACKS_HOLD_REQUEST (R69): At issue + 64, a stacks access that cannot meet its bound requests a hold. -/
  | stacksHoldRequest
  /-- BANK_POWER_GATE (R83): A bank with all slots blank and no access for 65,536 cycles is power-gated. -/
  | bankPowerGate
  /-- BANK_WAKE (R83): An access wakes a gated bank, holding the accessor or raising a group hold. -/
  | bankWake
  /-- BANK_AWAKE (R210): A woken bank applies its queued writes in arrival order. -/
  | bankAwake
  /-- TUNE_DUE (R198): The measured offset reaches plus or minus one cycle and sets the tune-due status. -/
  | tuneDue
  /-- GROUP_DESYNC (R201): The offset goes beyond two cycles: desync is set and timed contexts trap. -/
  | groupDesync
  /-- FRAME_SLOT (R202): A Dratrix frame starts at each position that is a multiple of 16, void if no core sent. -/
  | frameSlot
  /-- FRAME_ARRIVAL (R203): A frame reaches the receiving hub; a failed check delivers it void and counts it. -/
  | frameArrival
  /-- LINK_LOCK_LOSS (R193): A link that loses its lock delivers every later frame of the launch void. -/
  | linkLockLoss
  /-- PACKET_AT_PORT (R172): A scheduled packet at an output port passes or is discarded as a slot miss or collision. -/
  | packetAtPort
  /-- PAGE_WALK (R291): A free context's translation miss is walked, raising a demand fault if absent. -/
  | pageWalk
  /-- SUPERVISOR_TRAP (R276): A trap that goes to the supervisor stops the context, writes its mailbox record and queues it. -/
  | supervisorTrap
  /-- TASK_START (R7): A task starts at T0 on its context with the stated initial state. -/
  | taskStart
  /-- WAVE_START (R250): A seeded task of a later wave starts when its context's previous task has ended. -/
  | waveStart
  /-- LAUNCH_COMPLETE (R258): The launch's final boundary completes and its colophon is written. -/
  | launchComplete
  /-- HELD_SIGNAL_RELEASE (R244): After live is written, one held signal is released per cycle in arrival order. -/
  | heldSignalRelease
  /-- TAKEOVER (R263): An active scheduler's instruction-memory error raises takeover on the standby or another candidate. -/
  | takeover
  /-- PREEMPT_HALT (R284): The pre-emption request reaches the core and the context stops issuing. -/
  | preemptHalt
  /-- IMAGE_SAVE (R284): Once all landings and exchanges are done, the image is written, completion word last. -/
  | imageSave
  /-- CORE_RESET (R287): After the exchanges drain, buffers, claims, mailboxes, array and contexts are reset. -/
  | coreReset
  /-- SELF_TEST (R287): Core self-test ends, leaving the core in service or retired. -/
  | selfTest
  /-- SYSC_ENQUEUE (R254): Service 1 journals an enqueue and sets the queue's kick bit. -/
  | syscEnqueue
  /-- SYSC_STATUS (R254): Service 2 returns a status or level word of the own job. -/
  | syscStatus
  /-- SYSC_CANCEL (R254): Service 3 cancels within the own job. -/
  | syscCancel
  /-- SYSC_KICK (R254): Service 4 sets a dependant kick bit. -/
  | syscKick
  /-- BOOT (R293): From power-on, CC3 verifies and loads firmware, runs self-test and trains links. -/
  | boot
  /-- CC3_REBOOT (R309): CC3 reboots itself from ROM after an instruction-memory error. -/
  | cc3Reboot
  /-- THERMAL_READ (R308): Every 850 cycles the hottest sensor sets the thermal state, up to a trip. -/
  | thermalRead
  /-- EMERGENCY_HOLD (R308): In emergency, each 16,384-clock period starts with a hold of 8,192 clocks. -/
  | emergencyHold
  /-- PTP_MESSAGE (R302): A 1588 message updates the time of day used for log stamps. -/
  | ptpMessage
  /-- FABRIC_IMAGE_FETCH (R303): A job image fetched over the fabric is staged, verified and loaded. -/
  | fabricImageFetch
  /-- STATUS_READ (R301): Management message 0x0001 returns the package status. -/
  | statusRead
  /-- IMAGE_CHUNK (R301): Message 0x0002 delivers image bytes at an offset. -/
  | imageChunk
  /-- IMAGE_COMMIT (R301): Message 0x0003 verifies and loads a complete image. -/
  | imageCommit
  /-- LAUNCH_REQUEST (R301): Signed message 0x0010 enqueues a launch with parameter overrides. -/
  | launchRequest
  /-- CANCEL (R301): Signed message 0x0011 cancels a level. -/
  | cancel
  /-- GROUP_FORMATION (R196): Signed message 0x0020 forms a group: it measures Ld, fixes H, elects the leader and sets the counts. -/
  | groupFormation
  /-- GROUP_DISSOLVE (R196): Signed message 0x0021 dissolves the group. -/
  | groupDissolve
  /-- FUSE_PROGRAMMING (R301): Signed message 0x0030 programs fuses. -/
  | fuseProgramming
  /-- CALLOTE_LINE (R301): Signed message 0x0040 carries one Callote command line. -/
  | calloteLine
  /-- ATTESTATION (R298): Message 0x0050 returns a signed attestation report. -/
  | attestation
  /-- CERTIFICATE_READ (R301): Message 0x0051 returns the device certificate. -/
  | certificateRead
  /-- FIRMWARE_CHUNK (R301): Message 0x0060 delivers firmware bytes in recovery mode. -/
  | firmwareChunk
  /-- FIRMWARE_COMMIT (R301): Message 0x0061 verifies firmware and writes it to copy B. -/
  | firmwareCommit
  /-- CALLOTE_LOAD (R245): Verifies and loads an image. -/
  | calloteLoad
  /-- CALLOTE_LAUNCH (R319): Requests a launch. -/
  | calloteLaunch
  /-- BREAK (R319): Sets a breakpoint. -/
  | calloteBreak
  /-- CLEAR (R319): Removes a breakpoint. -/
  | calloteClear
  /-- RUN (R319): Continues execution, optionally to a count. -/
  | calloteRun
  /-- STEP (R319): Issues k bundles. -/
  | calloteStep
  /-- PRINT (R12): Prints state without changing it. -/
  | callotePrint
  /-- PLACE (R12): Prints slots' blocks and shelf marks. -/
  | callotePlace
  /-- CYCLE (R12): Prints the group count. -/
  | calloteCycle
  /-- WATCH (R194): Prints exchange or hold events as they happen. -/
  | calloteWatch
  /-- GROUP (R208): Prints the group configuration. -/
  | calloteGroup
  /-- LAT (R68): Prints a core's latency table. -/
  | calloteLat
  /-- ENQUEUE (R245): Makes CC3 journal an enqueue and kick at a given cycle. -/
  | calloteEnqueue
  /-- START (R245): Starts an active control core at its start label. -/
  | calloteStart
  /-- INJECT (R194): Injects a stated error for test. -/
  | calloteInject
  /-- INJECT_DRIFT (R194): Moves a package's schedule offset by one cycle. -/
  | injectDrift
  /-- INJECT_RESIDUE (R194): Makes one drain's residue comparison fail. -/
  | injectResidue
  /-- INJECT_DELAY (R222): Delays the network accesses and engine commands of one free bundle. -/
  | injectDelay
  /-- INJECT_IMEM (R245): Makes the next fetch of a control instruction fail. -/
  | injectImem
  /-- STANDBY_ERROR (R263): An error in CC2 while it stands by sets its out-of-service bit. -/
  | standbyError
  /-- COMMAND_END (R223): An engine command with rel = 0 ends when its last result write has been performed, freeing its engine and its in-flight count. -/
  | commandEnd
  /-- FABRIC_ENQUEUE (R253): An enqueue arriving over the fabric makes CC3 journal the enqueue record and set the queue's kick bit. -/
  | fabricEnqueue
  deriving DecidableEq, Repr

/-- What a step from outside carries (log 1): messages, commands, arrivals and readings; the start of a launch that another package's
control complex carries here (R249); the control complex's clearing of counters (R173, R198, R206); and whether a peer's session has the
group in debug pacing (R210). A relayed request says whether it is a Callote stop. A message of a type that R301 does
not name is read by the step that answers a status read; a peer's start is taken by the step that starts tasks; a clearing by the step that
counts; a peer's pacing by the step that takes its requests. -/
inductive Input where
  | holdRelay (r : BitVec 64) (ago peer : Nat) (stop : Bool)
  | endNotice (peer : Nat) (d : Nat)
  | stacksHoldRequest (inHand : Nat)
  | bankPowerGate (bank : BitVec 12)
  | tuneDue (offset : BitVec 16)
  | groupDesync (offset : BitVec 16)
  | frameArrival (port : BitVec 6) (f : Frame)
  | linkLockLoss (port : BitVec 6)
  | farLink (pkg : BitVec 8) (port : BitVec 6) (on : Bool)
  | peerPhase (launch : BitVec 64) (w : BitVec 20)
  | packetAtPort (p : Packet)
  | boot
  | cc3Reboot
  | thermalRead (tj : Int)
  | ptpMessage (time : BitVec 80)
  | fabricImageFetch (port : BitVec 6) (image : List Byte)
  | statusRead (m : Msg)
  | imageChunk (m : Msg)
  | imageCommit (m : Msg)
  | launchRequest (m : Msg)
  | cancel (m : Msg)
  | groupFormation (m : Msg)
  | groupDissolve (m : Msg)
  | fuseProgramming (m : Msg)
  | calloteLine (m : Msg)
  | attestation (m : Msg)
  | certificateRead (m : Msg)
  | firmwareChunk (m : Msg)
  | firmwareCommit (m : Msg)
  | calloteLoad (image : List Byte) (active standby : Option (BitVec 2))
  | calloteLaunch (r : LaunchReq)
  | calloteBreak (t : StopPoint)
  | calloteClear (bundle : Bool) (n : Nat)
  | calloteRun (till : Option Nat)
  | calloteStep (core : BitVec 9) (ctx : BitVec 2) (k : Nat)
  | callotePrint (item : PrintItem)
  | callotePlace (core : BitVec 9) (slots : List (BitVec 48))
  | calloteCycle
  | calloteWatch (k : WatchKind)
  | calloteGroup
  | calloteLat (core : BitVec 9)
  | calloteEnqueue (launch : BitVec 64) (queue prio : BitVec 8) (dep : Option (BitVec 32)) (at_ : Nat)
  | calloteStart (cc : BitVec 2)
  | calloteInject (k : Injection)
  | injectDrift (up : Bool)
  | injectResidue (core : BitVec 9) (ctx : BitVec 2) (bundle : BitVec 13)
  | injectDelay (core : BitVec 9) (ctx : BitVec 2) (bundle : BitVec 13) (k : Nat)
  | injectImem (cc : BitVec 2) (instr : Nat)
  | standbyError
  | fabricEnqueue (launch : BitVec 64)
  | otherMessage (type : BitVec 16) (m : Msg)
  | peerStart (launch : BitVec 64) (t0 : Nat) (r : Option LaunchReq)
  | clearNet (bulk : Bool) (router : BitVec 6) (port : BitVec 5)
  | clearPort (port : BitVec 6)
  | clearDesync
  | peerPacing (on : Bool)
  deriving DecidableEq, Repr

/-- The step an outside input takes. -/
def Input.step : Input → Instr
  | .holdRelay _ _ _ _ => .holdRelay
  | .peerPacing _ => .holdRelay
  | .endNotice _ _ => .endNotice
  | .stacksHoldRequest _ => .stacksHoldRequest
  | .bankPowerGate _ => .bankPowerGate
  | .tuneDue _ => .tuneDue
  | .groupDesync _ => .groupDesync
  | .frameArrival _ _ => .frameArrival
  | .linkLockLoss _ => .linkLockLoss
  | .farLink _ _ _ => .linkLockLoss
  | .peerPhase _ _ => .boundaryComplete
  | .packetAtPort _ => .packetAtPort
  | .boot => .boot
  | .cc3Reboot => .cc3Reboot
  | .thermalRead _ => .thermalRead
  | .ptpMessage _ => .ptpMessage
  | .fabricImageFetch _ _ => .fabricImageFetch
  | .statusRead _ => .statusRead
  | .imageChunk _ => .imageChunk
  | .imageCommit _ => .imageCommit
  | .launchRequest _ => .launchRequest
  | .cancel _ => .cancel
  | .groupFormation _ => .groupFormation
  | .groupDissolve _ => .groupDissolve
  | .fuseProgramming _ => .fuseProgramming
  | .calloteLine _ => .calloteLine
  | .attestation _ => .attestation
  | .certificateRead _ => .certificateRead
  | .firmwareChunk _ => .firmwareChunk
  | .firmwareCommit _ => .firmwareCommit
  | .calloteLoad _ _ _ => .calloteLoad
  | .calloteLaunch _ => .calloteLaunch
  | .calloteBreak _ => .calloteBreak
  | .calloteClear _ _ => .calloteClear
  | .calloteRun _ => .calloteRun
  | .calloteStep _ _ _ => .calloteStep
  | .callotePrint _ => .callotePrint
  | .callotePlace _ _ => .callotePlace
  | .calloteCycle => .calloteCycle
  | .calloteWatch _ => .calloteWatch
  | .calloteGroup => .calloteGroup
  | .calloteLat _ => .calloteLat
  | .calloteEnqueue _ _ _ _ _ => .calloteEnqueue
  | .calloteStart _ => .calloteStart
  | .calloteInject _ => .calloteInject
  | .injectDrift _ => .injectDrift
  | .injectResidue _ _ _ => .injectResidue
  | .injectDelay _ _ _ _ => .injectDelay
  | .injectImem _ _ => .injectImem
  | .standbyError => .standbyError
  | .fabricEnqueue _ => .fabricEnqueue
  | .otherMessage _ _ => .statusRead
  | .peerStart _ _ _ => .taskStart
  | .clearNet _ _ _ => .packetAtPort
  | .clearPort _ => .frameArrival
  | .clearDesync => .groupDesync

end Sys2Proof
end

