-- ==== Sys2Proof/WellFormed.lean ====
section
/-! DEFINITION. What a move, control word or beat may hold: the classes of sources, ports, triggers and latches (R24, R27,
R28) and the reserved fields of the control slot (R45, R57, R175). -/

namespace Sys2Proof

/-- The unit a 5-bit identifier reaches: pages A and B of sa0, sa1, va0 and va1 name one unit (R28). -/
def fuOf (f : Nat) : Nat :=
  if f = 1 then 0 else if f = 3 then 2 else if f = 9 then 8 else if f = 11 then 10 else f

/-- The class of an operand port: `some true` scalar, `some false` vector, `none` absent (R28). -/
def portClass (f p : Nat) : Option Bool :=
  match fuOf f, p with
  | 0, 0 | 0, 1 | 2, 0 | 2, 1 => some true
  | 4, 0 => some true
  | 5, 0 | 5, 1 => some true
  | 6, 0 | 6, 1 | 6, 2 | 7, 0 | 7, 1 | 7, 2 => some true
  | 6, 3 | 7, 3 => some false
  | 8, 0 | 8, 1 | 10, 0 | 10, 1 => some false
  | 8, 2 | 10, 2 => some true
  | 12, 0 | 12, 1 | 12, 2 | 12, 3 => some false
  | 13, 0 | 13, 1 => some false
  | 14, 0 | 14, 3 => some false
  | 14, 1 | 14, 2 => some true
  | 16, 0 | 16, 1 | 16, 2 => some true
  | 17, 0 | 17, 1 | 17, 2 => some true
  | 18, 0 | 18, 1 | 18, 2 => some true
  | 18, 3 => some false
  | 20, 0 | 20, 1 | 20, 2 => some true
  | 21, 0 => some true
  | _, _ => none

/-- The class of a result latch, 0 for z and 1 for y (R28). -/
def latchClass (f l : Nat) : Option Bool :=
  match fuOf f, l with
  | 0, 0 | 2, 0 | 4, 0 | 5, 0 | 5, 1 => some true
  | 6, 0 | 7, 0 => some false
  | 6, 1 | 7, 1 => some true
  | 8, 0 | 10, 0 | 12, 0 | 13, 0 | 14, 0 | 14, 1 => some false
  | 16, 0 | 16, 1 | 17, 0 => some true
  | 18, 0 => some false
  | 18, 1 => some true
  | 20, 0 => some false
  | 20, 1 => some true
  | 21, 0 | 21, 1 => some true
  | _, _ => none

/-- The class of a unit's trigger (R28): vector for va0, va1, vt, vs and vq. -/
def trigClass (f : Nat) : Bool :=
  match fuOf f with
  | 8 | 10 | 12 | 13 | 14 => false
  | _ => true

/-- Whether a bus of the class (`true` scalar) carries the source (R24); #L is allowed here and its limm is checked by the
bundle (R26). -/
def srcOk (scalar : Bool) (s : BitVec 10) : Bool :=
  let n := s.toNat
  if n < 0x40 then true
  else if n < 0x80 then !scalar
  else if n < 0xC0 then n < 0x90
  else if n < 0x100 then !scalar && n < 0xC8
  else if n < 0x200 then
    match latchClass ((n - 0x100) / 8) (n % 8) with
    | some true => true
    | some false => !scalar
    | none => false
  else if n < 0x300 then true
  else n ≤ 0x30D

/-- The class of a register or port destination; `none` for a trigger or a reserved code (R27, R28). -/
def dstClass (d : BitVec 10) : Option Bool :=
  let n := d.toNat
  if n < 0x40 then some true
  else if n < 0x80 then some false
  else if n < 0xC0 then (if n < 0x90 then some true else none)
  else if n < 0x100 then (if n < 0xC8 then some false else none)
  else if n < 0x200 then (if n % 8 < 4 then portClass ((n - 0x100) / 8) (n % 8) else none)
  else none

/-- Whether a move word may stand in a bundle without a long immediate: its source is carried by the bus that its
destination needs, and it does not read #L. -/
def moveFits (s d : BitVec 10) : Bool :=
  match (if d.toNat < 0x200 then dstClass d else some (trigClass ((d.toNat - 0x200) / 16))) with
  | some c => srcOk c s && s != 0x300#10
  | none => false

/-- The reserved fields of the control slot: registers that R45 marks n ≠ 0, a loop with s - 1 ≠ 0 and rot = 0, and a merge
window of 0. -/
def ctlFieldsOk : Instr → Bool
  | .call _ n _ => n != 0
  | .ret _ n => n != 0
  | .calli _ _ m => m != 0
  | .loop _ _ _ _ s r => s == 0 || r == 1
  | .loopi _ _ _ _ s r => s == 0 || r == 1
  | .phaseLaunch _ w => w != 0
  | .phaseGroup _ w => w != 0
  | _ => true

end Sys2Proof
end

