-- ==== Sys2Proof/Decode.lean ====
section
/-! DEFINITION. Decoding of bundles, move words, control words, beat words and control-core words into steps, rejecting by
name, and the encoder of every step that has a word (R21, R23, R27, R34 to R36, R45, R124, R151, R175, R264). -/

namespace Sys2Proof

/-- Why a word is refused. -/
inductive DecodeError where
  /-- A source or destination code that is reserved, or not carried by the bus (R24, R27, R32). -/
  | move
  /-- A reserved unit or operation code (R34). -/
  | trigger
  /-- A reserved control operation, operand bit or register (R35, R45). -/
  | control
  /-- A reserved beat operation, cell-op or nonzero unused bit (R36, R151). -/
  | beat
  /-- A number of bits that no word has. -/
  | width
  deriving DecidableEq, Repr

/-- The trigger of unit `f`, operation `o` (R34), with its guard and source: the step of that row, if any.
The three rows of sy.trec share one word; a source of -1 or -2 selects the resume and skip rows, whose meaning the value
of t alone decides (R275). -/
def trigInstr (f o : Nat) (g : BitVec 4) (s : BitVec 10) : Option Instr :=
  match f, o with
  | 0, 0 => some (.add g s 0)
  | 2, 0 => some (.add g s 1)
  | 0, 1 => some (.sub g s 0)
  | 2, 1 => some (.sub g s 1)
  | 0, 2 => some (.and g s 0)
  | 2, 2 => some (.and g s 1)
  | 0, 3 => some (.or g s 0)
  | 2, 3 => some (.or g s 1)
  | 0, 4 => some (.xor g s 0)
  | 2, 4 => some (.xor g s 1)
  | 0, 5 => some (.andn g s 0)
  | 2, 5 => some (.andn g s 1)
  | 0, 6 => some (.shl g s 0)
  | 2, 6 => some (.shl g s 1)
  | 0, 7 => some (.shr g s 0)
  | 2, 7 => some (.shr g s 1)
  | 0, 8 => some (.sar g s 0)
  | 2, 8 => some (.sar g s 1)
  | 0, 9 => some (.min g s 0)
  | 2, 9 => some (.min g s 1)
  | 0, 10 => some (.max g s 0)
  | 2, 10 => some (.max g s 1)
  | 0, 11 => some (.minu g s 0)
  | 2, 11 => some (.minu g s 1)
  | 0, 12 => some (.maxu g s 0)
  | 2, 12 => some (.maxu g s 1)
  | 0, 13 => some (.sel g s 0)
  | 2, 13 => some (.sel g s 1)
  | 0, 14 => some (.pass g s 0)
  | 2, 14 => some (.pass g s 1)
  | 0, 15 => some (.hi g s 0)
  | 2, 15 => some (.hi g s 1)
  | 1, 0 => some (.ceq g s 0)
  | 3, 0 => some (.ceq g s 1)
  | 1, 1 => some (.cne g s 0)
  | 3, 1 => some (.cne g s 1)
  | 1, 2 => some (.clt g s 0)
  | 3, 2 => some (.clt g s 1)
  | 1, 3 => some (.cltu g s 0)
  | 3, 3 => some (.cltu g s 1)
  | 1, 4 => some (.cle g s 0)
  | 3, 4 => some (.cle g s 1)
  | 1, 5 => some (.cleu g s 0)
  | 3, 5 => some (.cleu g s 1)
  | 1, 6 => some (.clz g s 0)
  | 3, 6 => some (.clz g s 1)
  | 1, 7 => some (.ctz g s 0)
  | 3, 7 => some (.ctz g s 1)
  | 1, 8 => some (.popc g s 0)
  | 3, 8 => some (.popc g s 1)
  | 1, 9 => some (.sx8 g s 0)
  | 3, 9 => some (.sx8 g s 1)
  | 1, 10 => some (.sx16 g s 0)
  | 3, 10 => some (.sx16 g s 1)
  | 1, 11 => some (.sx32 g s 0)
  | 3, 11 => some (.sx32 g s 1)
  | 1, 12 => some (.zx32 g s 0)
  | 3, 12 => some (.zx32 g s 1)
  | 1, 13 => some (.bext g s 0)
  | 3, 13 => some (.bext g s 1)
  | 1, 14 => some (.bins g s 0)
  | 3, 14 => some (.bins g s 1)
  | 1, 15 => some (.adds g s 0)
  | 3, 15 => some (.adds g s 1)
  | 4, 0 => some (.mul g s)
  | 4, 1 => some (.mulh g s)
  | 4, 2 => some (.mulhu g s)
  | 4, 3 => some (.div g s)
  | 4, 4 => some (.divu g s)
  | 4, 5 => some (.rem g s)
  | 4, 6 => some (.remu g s)
  | 4, 7 => some (.mix g s)
  | 5, 0 => some (.ld8 g s)
  | 5, 1 => some (.ld8u g s)
  | 5, 2 => some (.ld16 g s)
  | 5, 3 => some (.ld16u g s)
  | 5, 4 => some (.ld32 g s)
  | 5, 5 => some (.ld32u g s)
  | 5, 6 => some (.ld64 g s)
  | 5, 7 => some (.st8 g s)
  | 5, 8 => some (.st16 g s)
  | 5, 9 => some (.st32 g s)
  | 5, 10 => some (.st64 g s)
  | 5, 11 => some (.cas g s)
  | 5, 12 => some (.ldlive g s)
  | 6, 0 => some (.vld g s 0)
  | 7, 0 => some (.vld g s 1)
  | 6, 1 => some (.vldp g s 0)
  | 7, 1 => some (.vldp g s 1)
  | 6, 2 => some (.vlds g s 0)
  | 7, 2 => some (.vlds g s 1)
  | 6, 3 => some (.vldb g s 0)
  | 7, 3 => some (.vldb g s 1)
  | 6, 4 => some (.vgat g s 0)
  | 7, 4 => some (.vgat g s 1)
  | 6, 5 => some (.vst g s 0)
  | 7, 5 => some (.vst g s 1)
  | 6, 6 => some (.vstp g s 0)
  | 7, 6 => some (.vstp g s 1)
  | 6, 7 => some (.vsts g s 0)
  | 7, 7 => some (.vsts g s 1)
  | 6, 8 => some (.vsct g s 0)
  | 7, 8 => some (.vsct g s 1)
  | 6, 9 => some (.vspl g s 0)
  | 7, 9 => some (.vspl g s 1)
  | 6, 10 => some (.vfil g s 0)
  | 7, 10 => some (.vfil g s 1)
  | 8, 0 => some (.fadd g s 0)
  | 10, 0 => some (.fadd g s 1)
  | 8, 1 => some (.fsub g s 0)
  | 10, 1 => some (.fsub g s 1)
  | 8, 2 => some (.fmul g s 0)
  | 10, 2 => some (.fmul g s 1)
  | 8, 3 => some (.ffma g s 0)
  | 10, 3 => some (.ffma g s 1)
  | 8, 4 => some (.fmin g s 0)
  | 10, 4 => some (.fmin g s 1)
  | 8, 5 => some (.fmax g s 0)
  | 10, 5 => some (.fmax g s 1)
  | 8, 6 => some (.fabs g s 0)
  | 10, 6 => some (.fabs g s 1)
  | 8, 7 => some (.fneg g s 0)
  | 10, 7 => some (.fneg g s 1)
  | 8, 8 => some (.fcmp g s 0)
  | 10, 8 => some (.fcmp g s 1)
  | 8, 9 => some (.fcvti g s 0)
  | 10, 9 => some (.fcvti g s 1)
  | 8, 10 => some (.icvtf g s 0)
  | 10, 10 => some (.icvtf g s 1)
  | 8, 11 => some (.fsel g s 0)
  | 10, 11 => some (.fsel g s 1)
  | 8, 12 => some (.frnd g s 0)
  | 10, 12 => some (.frnd g s 1)
  | 9, 0 => some (.iadd g s 0)
  | 11, 0 => some (.iadd g s 1)
  | 9, 1 => some (.isub g s 0)
  | 11, 1 => some (.isub g s 1)
  | 9, 2 => some (.imul g s 0)
  | 11, 2 => some (.imul g s 1)
  | 9, 3 => some (.vand g s 0)
  | 11, 3 => some (.vand g s 1)
  | 9, 4 => some (.vor g s 0)
  | 11, 4 => some (.vor g s 1)
  | 9, 5 => some (.vxor g s 0)
  | 11, 5 => some (.vxor g s 1)
  | 9, 6 => some (.vshl g s 0)
  | 11, 6 => some (.vshl g s 1)
  | 9, 7 => some (.vshr g s 0)
  | 11, 7 => some (.vshr g s 1)
  | 9, 8 => some (.vsar g s 0)
  | 11, 8 => some (.vsar g s 1)
  | 9, 9 => some (.imin g s 0)
  | 11, 9 => some (.imin g s 1)
  | 9, 10 => some (.imax g s 0)
  | 11, 10 => some (.imax g s 1)
  | 9, 11 => some (.icmp g s 0)
  | 11, 11 => some (.icmp g s 1)
  | 9, 12 => some (.lbc g s 0)
  | 11, 12 => some (.lbc g s 1)
  | 9, 13 => some (.lperm g s 0)
  | 11, 13 => some (.lperm g s 1)
  | 9, 14 => some (.xcl g s 0)
  | 11, 14 => some (.xcl g s 1)
  | 9, 15 => some (.lred g s 0)
  | 11, 15 => some (.lred g s 1)
  | 12, 0 => some (.vtTri g s 0)
  | 12, 1 => some (.vtTri g s 1)
  | 12, 2 => some (.vtTri g s 2)
  | 12, 3 => some (.vtTri g s 3)
  | 12, 4 => some (.vtTri g s 4)
  | 12, 5 => some (.vtTri g s 5)
  | 12, 6 => some (.vtTri g s 6)
  | 12, 7 => some (.vtTri g s 7)
  | 12, 8 => some (.vtTri g s 8)
  | 12, 9 => some (.vtTri g s 9)
  | 12, 10 => some (.vtTri g s 10)
  | 12, 11 => some (.vtTri g s 11)
  | 12, 12 => some (.vtTri g s 12)
  | 12, 13 => some (.vtTri g s 13)
  | 12, 14 => some (.vtTri g s 14)
  | 12, 15 => some (.vtTri g s 15)
  | 13, 0 => some (.rcpa g s)
  | 13, 1 => some (.rsqa g s)
  | 13, 2 => some (.rcpn g s)
  | 13, 3 => some (.rsqn g s)
  | 13, 4 => some (.exp2a g s)
  | 13, 5 => some (.log2a g s)
  | 13, 6 => some (.fsqrt g s)
  | 13, 7 => some (.fdiv g s)
  | 13, 8 => some (.fscl g s)
  | 13, 9 => some (.fexp g s)
  | 14, 0 => some (.bmax g s)
  | 14, 1 => some (.qnt g s)
  | 14, 2 => some (.dqt g s)
  | 14, 3 => some (.cvb g s)
  | 14, 4 => some (.cvf g s)
  | 14, 5 => some (.cvsb g s)
  | 14, 6 => some (.cvub g s)
  | 14, 7 => some (.fret g s)
  | 14, 8 => some (.pack g s)
  | 14, 9 => some (.unpk g s)
  | 14, 10 => some (.vtag g s)
  | 16, 0 => some (.xch g s)
  | 16, 1 => some (.xchc g s)
  | 16, 2 => some (.xchl g s)
  | 16, 3 => some (.xchlc g s)
  | 16, 4 => some (.mark g s)
  | 16, 5 => some (.vac g s)
  | 16, 6 => some (.setm g s)
  | 16, 7 => some (.xst g s)
  | 17, 0 => some (.sidx g s)
  | 17, 1 => some (.sred g s)
  | 17, 2 => some (.stopk g s)
  | 17, 3 => some (.rpfx g s)
  | 17, 4 => some (.rprm g s)
  | 17, 5 => some (.bcst g s)
  | 17, 6 => some (.arm g s)
  | 17, 7 => some (.ecnt g s)
  | 18, 0 => some (.radd g s)
  | 18, 1 => some (.rmin g s)
  | 18, 2 => some (.rmax g s)
  | 18, 3 => some (.rand g s)
  | 18, 4 => some (.ror g s)
  | 18, 5 => some (.rxor g s)
  | 18, 6 => some (.rfadd g s)
  | 18, 7 => some (.rrd g s)
  | 18, 8 => some (.rclr g s)
  | 18, 9 => some (.send g s)
  | 18, 10 => some (.recv g s)
  | 18, 11 => some (.sendb g s)
  | 18, 12 => some (.recvb g s)
  | 20, 0 => some (.fbase g s)
  | 20, 1 => some (.fstr g s)
  | 20, 2 => some (.fcdx g s)
  | 20, 3 => some (.fprog g s)
  | 20, 4 => some (.pbase g s)
  | 20, 5 => some (.pstr g s)
  | 20, 6 => some (.anch g s)
  | 20, 7 => some (.live g s)
  | 20, 8 => some (.resid g s)
  | 20, 9 => some (.sfst g s)
  | 20, 10 => some (.gmode g s)
  | 20, 11 => some (.mxst g s)
  | 21, 0 => some (if s = 0x2FF#10 then .trecResume g s else if s = 0x2FE#10 then .trecSkip g s else .trecRead g s)
  | 21, 1 => some (.budg g s)
  | 21, 2 => some (.gcyc g s)
  | 21, 3 => some (.ctx g s)
  | 21, 4 => some (.trld g s)
  | 21, 5 => some (.sbase g s)
  | 21, 6 => some (.seed g s)
  | 21, 7 => some (.lparm g s)
  | _, _ => none

/-- The move word a step of the move slots stands for: guard, source, destination (R23, R27). -/
def moveOf : Instr → Option (BitVec 4 × BitVec 10 × BitVec 10)
  | .move g s d => some (g, s, d)
  | .add g s u => some (g, s, 0x200#10 ||| (u.zeroExtend 10 <<< 5))
  | .sub g s u => some (g, s, 0x201#10 ||| (u.zeroExtend 10 <<< 5))
  | .and g s u => some (g, s, 0x202#10 ||| (u.zeroExtend 10 <<< 5))
  | .or g s u => some (g, s, 0x203#10 ||| (u.zeroExtend 10 <<< 5))
  | .xor g s u => some (g, s, 0x204#10 ||| (u.zeroExtend 10 <<< 5))
  | .andn g s u => some (g, s, 0x205#10 ||| (u.zeroExtend 10 <<< 5))
  | .shl g s u => some (g, s, 0x206#10 ||| (u.zeroExtend 10 <<< 5))
  | .shr g s u => some (g, s, 0x207#10 ||| (u.zeroExtend 10 <<< 5))
  | .sar g s u => some (g, s, 0x208#10 ||| (u.zeroExtend 10 <<< 5))
  | .min g s u => some (g, s, 0x209#10 ||| (u.zeroExtend 10 <<< 5))
  | .max g s u => some (g, s, 0x20A#10 ||| (u.zeroExtend 10 <<< 5))
  | .minu g s u => some (g, s, 0x20B#10 ||| (u.zeroExtend 10 <<< 5))
  | .maxu g s u => some (g, s, 0x20C#10 ||| (u.zeroExtend 10 <<< 5))
  | .sel g s u => some (g, s, 0x20D#10 ||| (u.zeroExtend 10 <<< 5))
  | .pass g s u => some (g, s, 0x20E#10 ||| (u.zeroExtend 10 <<< 5))
  | .hi g s u => some (g, s, 0x20F#10 ||| (u.zeroExtend 10 <<< 5))
  | .ceq g s u => some (g, s, 0x210#10 ||| (u.zeroExtend 10 <<< 5))
  | .cne g s u => some (g, s, 0x211#10 ||| (u.zeroExtend 10 <<< 5))
  | .clt g s u => some (g, s, 0x212#10 ||| (u.zeroExtend 10 <<< 5))
  | .cltu g s u => some (g, s, 0x213#10 ||| (u.zeroExtend 10 <<< 5))
  | .cle g s u => some (g, s, 0x214#10 ||| (u.zeroExtend 10 <<< 5))
  | .cleu g s u => some (g, s, 0x215#10 ||| (u.zeroExtend 10 <<< 5))
  | .clz g s u => some (g, s, 0x216#10 ||| (u.zeroExtend 10 <<< 5))
  | .ctz g s u => some (g, s, 0x217#10 ||| (u.zeroExtend 10 <<< 5))
  | .popc g s u => some (g, s, 0x218#10 ||| (u.zeroExtend 10 <<< 5))
  | .sx8 g s u => some (g, s, 0x219#10 ||| (u.zeroExtend 10 <<< 5))
  | .sx16 g s u => some (g, s, 0x21A#10 ||| (u.zeroExtend 10 <<< 5))
  | .sx32 g s u => some (g, s, 0x21B#10 ||| (u.zeroExtend 10 <<< 5))
  | .zx32 g s u => some (g, s, 0x21C#10 ||| (u.zeroExtend 10 <<< 5))
  | .bext g s u => some (g, s, 0x21D#10 ||| (u.zeroExtend 10 <<< 5))
  | .bins g s u => some (g, s, 0x21E#10 ||| (u.zeroExtend 10 <<< 5))
  | .adds g s u => some (g, s, 0x21F#10 ||| (u.zeroExtend 10 <<< 5))
  | .mul g s => some (g, s, 0x240#10)
  | .mulh g s => some (g, s, 0x241#10)
  | .mulhu g s => some (g, s, 0x242#10)
  | .div g s => some (g, s, 0x243#10)
  | .divu g s => some (g, s, 0x244#10)
  | .rem g s => some (g, s, 0x245#10)
  | .remu g s => some (g, s, 0x246#10)
  | .mix g s => some (g, s, 0x247#10)
  | .ld8 g s => some (g, s, 0x250#10)
  | .ld8u g s => some (g, s, 0x251#10)
  | .ld16 g s => some (g, s, 0x252#10)
  | .ld16u g s => some (g, s, 0x253#10)
  | .ld32 g s => some (g, s, 0x254#10)
  | .ld32u g s => some (g, s, 0x255#10)
  | .ld64 g s => some (g, s, 0x256#10)
  | .st8 g s => some (g, s, 0x257#10)
  | .st16 g s => some (g, s, 0x258#10)
  | .st32 g s => some (g, s, 0x259#10)
  | .st64 g s => some (g, s, 0x25A#10)
  | .cas g s => some (g, s, 0x25B#10)
  | .ldlive g s => some (g, s, 0x25C#10)
  | .vld g s u => some (g, s, 0x260#10 ||| (u.zeroExtend 10 <<< 4))
  | .vldp g s u => some (g, s, 0x261#10 ||| (u.zeroExtend 10 <<< 4))
  | .vlds g s u => some (g, s, 0x262#10 ||| (u.zeroExtend 10 <<< 4))
  | .vldb g s u => some (g, s, 0x263#10 ||| (u.zeroExtend 10 <<< 4))
  | .vgat g s u => some (g, s, 0x264#10 ||| (u.zeroExtend 10 <<< 4))
  | .vst g s u => some (g, s, 0x265#10 ||| (u.zeroExtend 10 <<< 4))
  | .vstp g s u => some (g, s, 0x266#10 ||| (u.zeroExtend 10 <<< 4))
  | .vsts g s u => some (g, s, 0x267#10 ||| (u.zeroExtend 10 <<< 4))
  | .vsct g s u => some (g, s, 0x268#10 ||| (u.zeroExtend 10 <<< 4))
  | .vspl g s u => some (g, s, 0x269#10 ||| (u.zeroExtend 10 <<< 4))
  | .vfil g s u => some (g, s, 0x26A#10 ||| (u.zeroExtend 10 <<< 4))
  | .fadd g s u => some (g, s, 0x280#10 ||| (u.zeroExtend 10 <<< 5))
  | .fsub g s u => some (g, s, 0x281#10 ||| (u.zeroExtend 10 <<< 5))
  | .fmul g s u => some (g, s, 0x282#10 ||| (u.zeroExtend 10 <<< 5))
  | .ffma g s u => some (g, s, 0x283#10 ||| (u.zeroExtend 10 <<< 5))
  | .fmin g s u => some (g, s, 0x284#10 ||| (u.zeroExtend 10 <<< 5))
  | .fmax g s u => some (g, s, 0x285#10 ||| (u.zeroExtend 10 <<< 5))
  | .fabs g s u => some (g, s, 0x286#10 ||| (u.zeroExtend 10 <<< 5))
  | .fneg g s u => some (g, s, 0x287#10 ||| (u.zeroExtend 10 <<< 5))
  | .fcmp g s u => some (g, s, 0x288#10 ||| (u.zeroExtend 10 <<< 5))
  | .fcvti g s u => some (g, s, 0x289#10 ||| (u.zeroExtend 10 <<< 5))
  | .icvtf g s u => some (g, s, 0x28A#10 ||| (u.zeroExtend 10 <<< 5))
  | .fsel g s u => some (g, s, 0x28B#10 ||| (u.zeroExtend 10 <<< 5))
  | .frnd g s u => some (g, s, 0x28C#10 ||| (u.zeroExtend 10 <<< 5))
  | .iadd g s u => some (g, s, 0x290#10 ||| (u.zeroExtend 10 <<< 5))
  | .isub g s u => some (g, s, 0x291#10 ||| (u.zeroExtend 10 <<< 5))
  | .imul g s u => some (g, s, 0x292#10 ||| (u.zeroExtend 10 <<< 5))
  | .vand g s u => some (g, s, 0x293#10 ||| (u.zeroExtend 10 <<< 5))
  | .vor g s u => some (g, s, 0x294#10 ||| (u.zeroExtend 10 <<< 5))
  | .vxor g s u => some (g, s, 0x295#10 ||| (u.zeroExtend 10 <<< 5))
  | .vshl g s u => some (g, s, 0x296#10 ||| (u.zeroExtend 10 <<< 5))
  | .vshr g s u => some (g, s, 0x297#10 ||| (u.zeroExtend 10 <<< 5))
  | .vsar g s u => some (g, s, 0x298#10 ||| (u.zeroExtend 10 <<< 5))
  | .imin g s u => some (g, s, 0x299#10 ||| (u.zeroExtend 10 <<< 5))
  | .imax g s u => some (g, s, 0x29A#10 ||| (u.zeroExtend 10 <<< 5))
  | .icmp g s u => some (g, s, 0x29B#10 ||| (u.zeroExtend 10 <<< 5))
  | .lbc g s u => some (g, s, 0x29C#10 ||| (u.zeroExtend 10 <<< 5))
  | .lperm g s u => some (g, s, 0x29D#10 ||| (u.zeroExtend 10 <<< 5))
  | .xcl g s u => some (g, s, 0x29E#10 ||| (u.zeroExtend 10 <<< 5))
  | .lred g s u => some (g, s, 0x29F#10 ||| (u.zeroExtend 10 <<< 5))
  | .vtTri g s i => some (g, s, 0x2C0#10 ||| i.zeroExtend 10)
  | .rcpa g s => some (g, s, 0x2D0#10)
  | .rsqa g s => some (g, s, 0x2D1#10)
  | .rcpn g s => some (g, s, 0x2D2#10)
  | .rsqn g s => some (g, s, 0x2D3#10)
  | .exp2a g s => some (g, s, 0x2D4#10)
  | .log2a g s => some (g, s, 0x2D5#10)
  | .fsqrt g s => some (g, s, 0x2D6#10)
  | .fdiv g s => some (g, s, 0x2D7#10)
  | .fscl g s => some (g, s, 0x2D8#10)
  | .fexp g s => some (g, s, 0x2D9#10)
  | .bmax g s => some (g, s, 0x2E0#10)
  | .qnt g s => some (g, s, 0x2E1#10)
  | .dqt g s => some (g, s, 0x2E2#10)
  | .cvb g s => some (g, s, 0x2E3#10)
  | .cvf g s => some (g, s, 0x2E4#10)
  | .cvsb g s => some (g, s, 0x2E5#10)
  | .cvub g s => some (g, s, 0x2E6#10)
  | .fret g s => some (g, s, 0x2E7#10)
  | .pack g s => some (g, s, 0x2E8#10)
  | .unpk g s => some (g, s, 0x2E9#10)
  | .vtag g s => some (g, s, 0x2EA#10)
  | .xch g s => some (g, s, 0x300#10)
  | .xchc g s => some (g, s, 0x301#10)
  | .xchl g s => some (g, s, 0x302#10)
  | .xchlc g s => some (g, s, 0x303#10)
  | .mark g s => some (g, s, 0x304#10)
  | .vac g s => some (g, s, 0x305#10)
  | .setm g s => some (g, s, 0x306#10)
  | .xst g s => some (g, s, 0x307#10)
  | .sidx g s => some (g, s, 0x310#10)
  | .sred g s => some (g, s, 0x311#10)
  | .stopk g s => some (g, s, 0x312#10)
  | .rpfx g s => some (g, s, 0x313#10)
  | .rprm g s => some (g, s, 0x314#10)
  | .bcst g s => some (g, s, 0x315#10)
  | .arm g s => some (g, s, 0x316#10)
  | .ecnt g s => some (g, s, 0x317#10)
  | .radd g s => some (g, s, 0x320#10)
  | .rmin g s => some (g, s, 0x321#10)
  | .rmax g s => some (g, s, 0x322#10)
  | .rand g s => some (g, s, 0x323#10)
  | .ror g s => some (g, s, 0x324#10)
  | .rxor g s => some (g, s, 0x325#10)
  | .rfadd g s => some (g, s, 0x326#10)
  | .rrd g s => some (g, s, 0x327#10)
  | .rclr g s => some (g, s, 0x328#10)
  | .send g s => some (g, s, 0x329#10)
  | .recv g s => some (g, s, 0x32A#10)
  | .sendb g s => some (g, s, 0x32B#10)
  | .recvb g s => some (g, s, 0x32C#10)
  | .fbase g s => some (g, s, 0x340#10)
  | .fstr g s => some (g, s, 0x341#10)
  | .fcdx g s => some (g, s, 0x342#10)
  | .fprog g s => some (g, s, 0x343#10)
  | .pbase g s => some (g, s, 0x344#10)
  | .pstr g s => some (g, s, 0x345#10)
  | .anch g s => some (g, s, 0x346#10)
  | .live g s => some (g, s, 0x347#10)
  | .resid g s => some (g, s, 0x348#10)
  | .sfst g s => some (g, s, 0x349#10)
  | .gmode g s => some (g, s, 0x34A#10)
  | .mxst g s => some (g, s, 0x34B#10)
  | .trecRead g s => some (g, s, 0x350#10)
  | .trecResume g s => some (g, s, 0x350#10)
  | .trecSkip g s => some (g, s, 0x350#10)
  | .budg g s => some (g, s, 0x351#10)
  | .gcyc g s => some (g, s, 0x352#10)
  | .ctx g s => some (g, s, 0x353#10)
  | .trld g s => some (g, s, 0x354#10)
  | .sbase g s => some (g, s, 0x355#10)
  | .seed g s => some (g, s, 0x356#10)
  | .lparm g s => some (g, s, 0x357#10)
  | _ => none

/-- The control word a step of the control slot stands for (R35). -/
def ctlOf : Instr → Option (BitVec 32)
  | .nop g => some (0x00000000#32 ||| (g.zeroExtend 32 <<< 22))
  | .br g o => some (0x04000000#32 ||| (g.zeroExtend 32 <<< 22) ||| (o.zeroExtend 32 <<< 0))
  | .call g n o => some (0x08000000#32 ||| (g.zeroExtend 32 <<< 22) ||| (n.zeroExtend 32 <<< 16) ||| (o.zeroExtend 32 <<< 0))
  | .ret g n => some (0x0C000000#32 ||| (g.zeroExtend 32 <<< 22) ||| (n.zeroExtend 32 <<< 16))
  | .jmpi g n => some (0x10000000#32 ||| (g.zeroExtend 32 <<< 22) ||| (n.zeroExtend 32 <<< 16))
  | .calli g n m => some (0x14000000#32 ||| (g.zeroExtend 32 <<< 22) ||| (n.zeroExtend 32 <<< 16) ||| (m.zeroExtend 32 <<< 10))
  | .limm g v => some (0x18000000#32 ||| (g.zeroExtend 32 <<< 22) ||| (v.zeroExtend 32 <<< 0))
  | .limmh g v => some (0x1C000000#32 ||| (g.zeroExtend 32 <<< 22) ||| (v.zeroExtend 32 <<< 0))
  | .loop g k n d s r => some (0x20000000#32 ||| (g.zeroExtend 32 <<< 22) ||| (k.zeroExtend 32 <<< 20) ||| (n.zeroExtend 32 <<< 14) ||| (d.zeroExtend 32 <<< 4) ||| (s.zeroExtend 32 <<< 1) ||| (r.zeroExtend 32 <<< 0))
  | .loopi g k c d s r => some (0x24000000#32 ||| (g.zeroExtend 32 <<< 22) ||| (k.zeroExtend 32 <<< 20) ||| (c.zeroExtend 32 <<< 14) ||| (d.zeroExtend 32 <<< 4) ||| (s.zeroExtend 32 <<< 1) ||| (r.zeroExtend 32 <<< 0))
  | .brk g k => some (0x28000000#32 ||| (g.zeroExtend 32 <<< 22) ||| (k.zeroExtend 32 <<< 20))
  | .mpush g n => some (0x2C000000#32 ||| (g.zeroExtend 32 <<< 22) ||| (n.zeroExtend 32 <<< 0))
  | .mpop g => some (0x30000000#32 ||| (g.zeroExtend 32 <<< 22))
  | .minv g n => some (0x34000000#32 ||| (g.zeroExtend 32 <<< 22) ||| (n.zeroExtend 32 <<< 0))
  | .minvElse g => some (0x34000008#32 ||| (g.zeroExtend 32 <<< 22))
  | .brnone g o => some (0x38000000#32 ||| (g.zeroExtend 32 <<< 22) ||| (o.zeroExtend 32 <<< 0))
  | .brany g o => some (0x3C000000#32 ||| (g.zeroExtend 32 <<< 22) ||| (o.zeroExtend 32 <<< 0))
  | .waitEng g e n => some (0x40000000#32 ||| (g.zeroExtend 32 <<< 22) ||| (e.zeroExtend 32 <<< 16) ||| (n.zeroExtend 32 <<< 10))
  | .waitArr g k => some (0x40080000#32 ||| (g.zeroExtend 32 <<< 22) ||| (k.zeroExtend 32 <<< 16))
  | .waitXcnt g n => some (0x40100000#32 ||| (g.zeroExtend 32 <<< 22) ||| (n.zeroExtend 32 <<< 10))
  | .waitWeq g n m => some (0x40180000#32 ||| (g.zeroExtend 32 <<< 22) ||| (n.zeroExtend 32 <<< 10) ||| (m.zeroExtend 32 <<< 4))
  | .waitWne g n m => some (0x40200000#32 ||| (g.zeroExtend 32 <<< 22) ||| (n.zeroExtend 32 <<< 10) ||| (m.zeroExtend 32 <<< 4))
  | .waitc g n => some (0x44000000#32 ||| (g.zeroExtend 32 <<< 22) ||| (n.zeroExtend 32 <<< 16))
  | .phaseLaunch g w => some (0x48000000#32 ||| (g.zeroExtend 32 <<< 22) ||| (w.zeroExtend 32 <<< 0))
  | .phaseGroup g w => some (0x48100000#32 ||| (g.zeroExtend 32 <<< 22) ||| (w.zeroExtend 32 <<< 0))
  | .tune g => some (0x4C000000#32 ||| (g.zeroExtend 32 <<< 22))
  | .cfence g => some (0x50000000#32 ||| (g.zeroExtend 32 <<< 22))
  | .sfenceAcq g => some (0x54000001#32 ||| (g.zeroExtend 32 <<< 22))
  | .sfenceRel g => some (0x54000002#32 ||| (g.zeroExtend 32 <<< 22))
  | .sfenceAcqRel g => some (0x54000003#32 ||| (g.zeroExtend 32 <<< 22))
  | .trap g c => some (0x58000000#32 ||| (g.zeroExtend 32 <<< 22) ||| (c.zeroExtend 32 <<< 0))
  | .sysc g s => some (0x5C000000#32 ||| (g.zeroExtend 32 <<< 22) ||| (s.zeroExtend 32 <<< 0))
  | .halt g => some (0x60000000#32 ||| (g.zeroExtend 32 <<< 22))
  | .yield g => some (0x64000000#32 ||| (g.zeroExtend 32 <<< 22))
  | .ckend g => some (0x68000000#32 ||| (g.zeroExtend 32 <<< 22))
  | _ => none

/-- The Xzgl word a step stands for (R264). -/
def xzglOf : Instr → Option (BitVec 32)
  | .zlaunch s d => some (0x0000000B#32 ||| (s.zeroExtend 32 <<< 15) ||| (d.zeroExtend 32 <<< 7))
  | .zkick t s => some (0x0000100B#32 ||| (t.zeroExtend 32 <<< 20) ||| (s.zeroExtend 32 <<< 15))
  | .zscan s d => some (0x0000200B#32 ||| (s.zeroExtend 32 <<< 15) ||| (d.zeroExtend 32 <<< 7))
  | .zcancel t s d => some (0x0000300B#32 ||| (t.zeroExtend 32 <<< 20) ||| (s.zeroExtend 32 <<< 15) ||| (d.zeroExtend 32 <<< 7))
  | .zpreemptHalt t s d => some (0x0000400B#32 ||| (t.zeroExtend 32 <<< 20) ||| (s.zeroExtend 32 <<< 15) ||| (d.zeroExtend 32 <<< 7))
  | .zpreemptResume t s d => some (0x0000400B#32 ||| (t.zeroExtend 32 <<< 20) ||| (s.zeroExtend 32 <<< 15) ||| (d.zeroExtend 32 <<< 7))
  | .zreset s d => some (0x0000500B#32 ||| (s.zeroExtend 32 <<< 15) ||| (d.zeroExtend 32 <<< 7))
  | .zjrnl s d => some (0x0000600B#32 ||| (s.zeroExtend 32 <<< 15) ||| (d.zeroExtend 32 <<< 7))
  | .zcolo t s d => some (0x0000700B#32 ||| (t.zeroExtend 32 <<< 20) ||| (s.zeroExtend 32 <<< 15) ||| (d.zeroExtend 32 <<< 7))
  | .zbudget t s d => some (0x0000002B#32 ||| (t.zeroExtend 32 <<< 20) ||| (s.zeroExtend 32 <<< 15) ||| (d.zeroExtend 32 <<< 7))
  | .zfence t s d => some (0x0000102B#32 ||| (t.zeroExtend 32 <<< 20) ||| (s.zeroExtend 32 <<< 15) ||| (d.zeroExtend 32 <<< 7))
  | _ => none

/-- The step a control word encodes, by its mask and match (R35, R45, R124, R175, R200, R212, R234), before the checks of
`ctlFieldsOk`. -/
def ctlRow (w : BitVec 32) : Option Instr :=
  if w &&& 0xFC3FFFFF#32 = 0x00000000#32 then some (.nop (w.extractLsb' 22 4))
  else if w &&& 0xFC3FC000#32 = 0x04000000#32 then some (.br (w.extractLsb' 22 4) (w.extractLsb' 0 14))
  else if w &&& 0xFC00C000#32 = 0x08000000#32 then some (.call (w.extractLsb' 22 4) (w.extractLsb' 16 6) (w.extractLsb' 0 14))
  else if w &&& 0xFC00FFFF#32 = 0x0C000000#32 then some (.ret (w.extractLsb' 22 4) (w.extractLsb' 16 6))
  else if w &&& 0xFC00FFFF#32 = 0x10000000#32 then some (.jmpi (w.extractLsb' 22 4) (w.extractLsb' 16 6))
  else if w &&& 0xFC0003FF#32 = 0x14000000#32 then some (.calli (w.extractLsb' 22 4) (w.extractLsb' 16 6) (w.extractLsb' 10 6))
  else if w &&& 0xFC000000#32 = 0x18000000#32 then some (.limm (w.extractLsb' 22 4) (w.extractLsb' 0 22))
  else if w &&& 0xFC000000#32 = 0x1C000000#32 then some (.limmh (w.extractLsb' 22 4) (w.extractLsb' 0 22))
  else if w &&& 0xFC000000#32 = 0x20000000#32 then some (.loop (w.extractLsb' 22 4) (w.extractLsb' 20 2) (w.extractLsb' 14 6) (w.extractLsb' 4 10) (w.extractLsb' 1 3) (w.extractLsb' 0 1))
  else if w &&& 0xFC000000#32 = 0x24000000#32 then some (.loopi (w.extractLsb' 22 4) (w.extractLsb' 20 2) (w.extractLsb' 14 6) (w.extractLsb' 4 10) (w.extractLsb' 1 3) (w.extractLsb' 0 1))
  else if w &&& 0xFC0FFFFF#32 = 0x28000000#32 then some (.brk (w.extractLsb' 22 4) (w.extractLsb' 20 2))
  else if w &&& 0xFC3FFFF8#32 = 0x2C000000#32 then some (.mpush (w.extractLsb' 22 4) (w.extractLsb' 0 3))
  else if w &&& 0xFC3FFFFF#32 = 0x30000000#32 then some (.mpop (w.extractLsb' 22 4))
  else if w &&& 0xFC3FFFF8#32 = 0x34000000#32 then some (.minv (w.extractLsb' 22 4) (w.extractLsb' 0 3))
  else if w &&& 0xFC3FFFFF#32 = 0x34000008#32 then some (.minvElse (w.extractLsb' 22 4))
  else if w &&& 0xFC3FC000#32 = 0x38000000#32 then some (.brnone (w.extractLsb' 22 4) (w.extractLsb' 0 14))
  else if w &&& 0xFC3FC000#32 = 0x3C000000#32 then some (.brany (w.extractLsb' 22 4) (w.extractLsb' 0 14))
  else if w &&& 0xFC3803FF#32 = 0x40000000#32 then some (.waitEng (w.extractLsb' 22 4) (w.extractLsb' 16 3) (w.extractLsb' 10 6))
  else if w &&& 0xFC38FFFF#32 = 0x40080000#32 then some (.waitArr (w.extractLsb' 22 4) (w.extractLsb' 16 3))
  else if w &&& 0xFC3F03FF#32 = 0x40100000#32 then some (.waitXcnt (w.extractLsb' 22 4) (w.extractLsb' 10 6))
  else if w &&& 0xFC3F000F#32 = 0x40180000#32 then some (.waitWeq (w.extractLsb' 22 4) (w.extractLsb' 10 6) (w.extractLsb' 4 6))
  else if w &&& 0xFC3F000F#32 = 0x40200000#32 then some (.waitWne (w.extractLsb' 22 4) (w.extractLsb' 10 6) (w.extractLsb' 4 6))
  else if w &&& 0xFC00FFFF#32 = 0x44000000#32 then some (.waitc (w.extractLsb' 22 4) (w.extractLsb' 16 6))
  else if w &&& 0xFC300000#32 = 0x48000000#32 then some (.phaseLaunch (w.extractLsb' 22 4) (w.extractLsb' 0 20))
  else if w &&& 0xFC300000#32 = 0x48100000#32 then some (.phaseGroup (w.extractLsb' 22 4) (w.extractLsb' 0 20))
  else if w &&& 0xFC3FFFFF#32 = 0x4C000000#32 then some (.tune (w.extractLsb' 22 4))
  else if w &&& 0xFC3FFFFF#32 = 0x50000000#32 then some (.cfence (w.extractLsb' 22 4))
  else if w &&& 0xFC3FFFFF#32 = 0x54000001#32 then some (.sfenceAcq (w.extractLsb' 22 4))
  else if w &&& 0xFC3FFFFF#32 = 0x54000002#32 then some (.sfenceRel (w.extractLsb' 22 4))
  else if w &&& 0xFC3FFFFF#32 = 0x54000003#32 then some (.sfenceAcqRel (w.extractLsb' 22 4))
  else if w &&& 0xFC3F0000#32 = 0x58000000#32 then some (.trap (w.extractLsb' 22 4) (w.extractLsb' 0 16))
  else if w &&& 0xFC3F0000#32 = 0x5C000000#32 then some (.sysc (w.extractLsb' 22 4) (w.extractLsb' 0 16))
  else if w &&& 0xFC3FFFFF#32 = 0x60000000#32 then some (.halt (w.extractLsb' 22 4))
  else if w &&& 0xFC3FFFFF#32 = 0x64000000#32 then some (.yield (w.extractLsb' 22 4))
  else if w &&& 0xFC3FFFFF#32 = 0x68000000#32 then some (.ckend (w.extractLsb' 22 4))
  else none

/-- The Xzgl step of a control-core word (R242, R264), by its mask and match. -/
def xzglRow (w : BitVec 32) : Option Instr :=
  if w &&& 0xFFF0707F#32 = 0x0000000B#32 then some (.zlaunch (w.extractLsb' 15 5) (w.extractLsb' 7 5))
  else if w &&& 0xFE007FFF#32 = 0x0000100B#32 then some (.zkick (w.extractLsb' 20 5) (w.extractLsb' 15 5))
  else if w &&& 0xFFF0707F#32 = 0x0000200B#32 then some (.zscan (w.extractLsb' 15 5) (w.extractLsb' 7 5))
  else if w &&& 0xFE00707F#32 = 0x0000300B#32 then some (.zcancel (w.extractLsb' 20 5) (w.extractLsb' 15 5) (w.extractLsb' 7 5))
  else if w &&& 0xFE00707F#32 = 0x0000400B#32 then some (.zpreemptHalt (w.extractLsb' 20 5) (w.extractLsb' 15 5) (w.extractLsb' 7 5))
  else if w &&& 0xFFF0707F#32 = 0x0000500B#32 then some (.zreset (w.extractLsb' 15 5) (w.extractLsb' 7 5))
  else if w &&& 0xFFF0707F#32 = 0x0000600B#32 then some (.zjrnl (w.extractLsb' 15 5) (w.extractLsb' 7 5))
  else if w &&& 0xFE00707F#32 = 0x0000700B#32 then some (.zcolo (w.extractLsb' 20 5) (w.extractLsb' 15 5) (w.extractLsb' 7 5))
  else if w &&& 0xFE00707F#32 = 0x0000002B#32 then some (.zbudget (w.extractLsb' 20 5) (w.extractLsb' 15 5) (w.extractLsb' 7 5))
  else if w &&& 0xFE00707F#32 = 0x0000102B#32 then some (.zfence (w.extractLsb' 20 5) (w.extractLsb' 15 5) (w.extractLsb' 7 5))
  else none

/-- The bits of a move word (R23). -/
def moveWord (g : BitVec 4) (s d : BitVec 10) : BitVec 24 := g ++ s ++ d

/-- The class of the bus a destination needs (R27, R28), `true` scalar. -/
def busOf (d : BitVec 10) : Bool :=
  if d.toNat < 0x200 then (dstClass d).getD true else trigClass ((d.toNat - 0x200) / 16)

/-- Decodes a move word (R23, R24, R27, R34). -/
def decodeMove (w : BitVec 24) : Except DecodeError Instr :=
  let g := w.extractLsb' 20 4
  let s := w.extractLsb' 10 10
  let d := w.extractLsb' 0 10
  if d.toNat < 0x200 then
    if moveFits s d || s == 0x300#10 && (dstClass d).isSome then .ok (.move g s d) else .error .move
  else
    match trigInstr ((d.toNat - 0x200) / 16) (d.toNat % 16) g s with
    | none => .error .trigger
    | some i => if srcOk (trigClass ((d.toNat - 0x200) / 16)) s then .ok i else .error .move

/-- Decodes a control word (R35). -/
def decodeCtl (w : BitVec 32) : Except DecodeError Instr :=
  match ctlRow w with
  | some i => if ctlFieldsOk i then .ok i else .error .control
  | none => .error .control

/-- The bits of a beat word (R36, R151). -/
def beatOf : Instr → Option (BitVec 28)
  | .push g c row => some (0x1#4 ++ g ++ 0x0#2 ++ c ++ 0x0#8 ++ row)
  | .feed g p e acc => some (0x2#4 ++ g ++ 0x0#4 ++ p ++ e ++ acc ++ 0x0#7)
  | .feedAbsd g p e acc => some (0x2#4 ++ g ++ 0x1#2 ++ 0x0#2 ++ p ++ e ++ acc ++ 0x0#7)
  | .feedCmps g p e acc => some (0x2#4 ++ g ++ 0x2#2 ++ 0x0#2 ++ p ++ e ++ acc ++ 0x0#7)
  | .gfeed g p => some (0x3#4 ++ g ++ 0x0#4 ++ p ++ 0x0#14)
  | .drain g e => some (0x4#4 ++ g ++ 0x0#6 ++ e ++ 0x0#8)
  | .gdrain g c k => some (0x5#4 ++ g ++ 0x0#2 ++ c ++ 0x0#8 ++ k)
  | .clr g e => some (0x6#4 ++ g ++ 0x0#6 ++ e ++ 0x0#8)
  | .gclr g c => some (0x7#4 ++ g ++ 0x0#2 ++ c ++ 0x0#16)
  | _ => none

/-- Decodes a beat word whose operation is not nop (R36, R151). -/
def decodeBeat (w : BitVec 28) : Except DecodeError Instr :=
  let g := w.extractLsb' 20 4
  let cell := w.extractLsb' 18 2
  let c := w.extractLsb' 16 2
  let p := w.extractLsb' 14 2
  let e := w.extractLsb' 8 6
  let acc := w.extractLsb' 7 1
  let low := w.extractLsb' 0 7
  let row := w.extractLsb' 0 8
  match (w.extractLsb' 24 4).toNat with
  | 1 => if cell = 0 ∧ p = 0 ∧ e = 0 then .ok (.push g c row) else .error .beat
  | 2 =>
    if c = 0 ∧ low = 0 then
      if cell = 0 then .ok (.feed g p e acc)
      else if cell = 1 then .ok (.feedAbsd g p e acc)
      else if cell = 2 then .ok (.feedCmps g p e acc)
      else .error .beat
    else .error .beat
  | 3 => if cell = 0 ∧ c = 0 ∧ e = 0 ∧ row = 0 then .ok (.gfeed g p) else .error .beat
  | 4 => if cell = 0 ∧ c = 0 ∧ p = 0 ∧ row = 0 then .ok (.drain g e) else .error .beat
  | 5 => if cell = 0 ∧ p = 0 ∧ e = 0 then .ok (.gdrain g c row) else .error .beat
  | 6 => if cell = 0 ∧ c = 0 ∧ p = 0 ∧ row = 0 then .ok (.clr g e) else .error .beat
  | 7 => if cell = 0 ∧ p = 0 ∧ e = 0 ∧ row = 0 then .ok (.gclr g c) else .error .beat
  | _ => .error .beat

/-- Whether a beat word is the nop beat: operation 0 with bits 19:0 zero (R36); its guard is free. -/
def beatNop (w : BitVec 28) : Bool := w.extractLsb' 24 4 == 0 && w.extractLsb' 0 20 == 0

/-- Whether a control-core word is a CSR instruction of Zicsr that writes: csrrw and csrrwi always, the set and clear forms
unless their operand field is zero. -/
def csrWrites (w : BitVec 32) : Bool :=
  let f := (w.extractLsb' 12 3).toNat
  f == 1 || f == 5 || ((f == 2 || f == 3 || f == 6 || f == 7) && w.extractLsb' 15 5 != 0)

/-- Decodes the word at a control core's pc (R241, R264): Xzgl steps, the CSR accesses that are steps of their own (R244,
R255, R262, R276, R292), and every other word as one RV64IMAC instruction. -/
def decodeRv (w : BitVec 32) : Instr :=
  match xzglRow w with
  | some i => i
  | none =>
    let csr := (w.extractLsb' 20 12).toNat
    let f := (w.extractLsb' 12 3).toNat
    if w.extractLsb' 0 7 = 0x73#7 ∧ f ≠ 0 ∧ f ≠ 4 then
      if csr = 0xFC3 ∧ !csrWrites w then .ztrapqRead w
      else if csrWrites w then
        if csr = 0x7C0 then .zctkoLive w
        else if csr = 0x7C1 then .zjheadWrite w
        else if csr = 0x7C3 then .zxinvWrite w
        else if csr = 0x7C2 then .registerWrite w
        else .controlCoreInstruction w
      else .controlCoreInstruction w
    else .controlCoreInstruction w

/-- Move slot `k` of a bundle (R21). -/
def bundleMove (b : BitVec 256) (k : Nat) : BitVec 24 := b.extractLsb' (24 * k) 24
/-- The beat slot (R21). -/
def bundleBeat (b : BitVec 256) : BitVec 28 := b.extractLsb' 192 28
/-- The control slot (R21). -/
def bundleCtl (b : BitVec 256) : BitVec 32 := b.extractLsb' 220 32
/-- The reserved header bits (R21). -/
def bundleHdr (b : BitVec 256) : BitVec 3 := b.extractLsb' 252 3
/-- The CK bit (R21, R212). -/
def bundleCk (b : BitVec 256) : Bool := b.getLsbD 255

/-- The bundle that holds only this move, in slot 0 or in slot 4 (R21, R22, R37). -/
def bundleOfMove (w : BitVec 24) : BitVec 256 :=
  if busOf (w.extractLsb' 0 10) then w.zeroExtend 256 else w.zeroExtend 256 <<< 96
/-- The bundle that holds only this beat. -/
def bundleOfBeat (w : BitVec 28) : BitVec 256 := w.zeroExtend 256 <<< 192
/-- The bundle that holds only this control word. -/
def bundleOfCtl (w : BitVec 32) : BitVec 256 := w.zeroExtend 256 <<< 220

/-- The bundle of the step, for every step that is one slot of a bundle or a whole bundle. -/
def bundleOf : Instr → Option (BitVec 256)
  | .bundleIssue b => some b
  | .checkpoint b => some b
  | i =>
    match moveOf i, ctlOf i, beatOf i with
    | some (g, s, d), _, _ => some (bundleOfMove (moveWord g s d))
    | none, some w, _ => some (bundleOfCtl w)
    | none, none, some w => some (bundleOfBeat w)
    | none, none, none => none

/-- The step that a bundle is (log 16): a CK bundle is CHECKPOINT; a bundle that holds exactly one slot, which decodes and
whose move does not read #L, is that slot's step; an empty bundle is NOP; every other bundle is BUNDLE_ISSUE. -/
def decodeBundle (b : BitVec 256) : Instr :=
  if bundleCk b then .checkpoint b
  else
    let one (r : Except DecodeError Instr) (whole : BitVec 256) : Instr :=
      match r with
      | .ok i => if whole = b then i else .bundleIssue b
      | .error _ => .bundleIssue b
    if bundleMove b 0 ≠ 0 then
      if (bundleMove b 0).extractLsb' 10 10 = 0x300#10 then .bundleIssue b
      else one (decodeMove (bundleMove b 0)) (bundleOfMove (bundleMove b 0))
    else if bundleMove b 4 ≠ 0 then
      if (bundleMove b 4).extractLsb' 10 10 = 0x300#10 then .bundleIssue b
      else one (decodeMove (bundleMove b 4)) (bundleOfMove (bundleMove b 4))
    else if bundleBeat b ≠ 0 then one (decodeBeat (bundleBeat b)) (bundleOfBeat (bundleBeat b))
    else one (decodeCtl (bundleCtl b)) (bundleOfCtl (bundleCtl b))

/-- A word read from bytes, the first byte lowest (R13). -/
def leWord : List Byte → Nat
  | [] => 0
  | b :: bs => b.toNat + 256 * leWord bs

/-- The bytes of a number, the first byte lowest (R13). -/
def leBytes : Nat → Nat → List Byte
  | 0, _ => []
  | n + 1, w => BitVec.ofNat 8 w :: leBytes n (w / 256)

/-- Decodes the 32 bytes of a bundle (R21). -/
def decodeBundleBytes (bs : List Byte) : Except DecodeError Instr :=
  if bs.length = 32 then .ok (decodeBundle (BitVec.ofNat 256 (leWord bs))) else .error .width

/-- Well-formed steps: those whose word the decoder gives back (R32, R45, R175). -/
def WellFormed (i : Instr) : Bool :=
  match i with
  | .bundleIssue b => decide (decodeBundle b = .bundleIssue b)
  | .checkpoint b => bundleCk b
  | .trecRead _ s => moveFits s 0x350#10 && s != 0x2FF#10 && s != 0x2FE#10
  | .trecResume _ s => s == 0x2FF#10
  | .trecSkip _ s => s == 0x2FE#10
  | .move g s d => moveFits s d && (dstClass d).isSome && moveWord g s d != 0
  | .zctkoLive w | .zjheadWrite w | .zxinvWrite w | .ztrapqRead w | .registerWrite w | .controlCoreInstruction w =>
    decide (decodeRv w = i)
  | _ =>
    match moveOf i with
    | some (_, s, d) => moveFits s d
    | none => ctlFieldsOk i

/-- The words of a step: the 256 bits of its bundle, or the 32 bits of its control-core word. -/
def encode (i : Instr) : Option (Nat × Nat) :=
  match bundleOf i, xzglOf i with
  | some b, _ => some (256, b.toNat)
  | none, some w => some (32, w.toNat)
  | none, none =>
    match i with
    | .zctkoLive w | .zjheadWrite w | .zxinvWrite w | .ztrapqRead w | .registerWrite w
    | .controlCoreInstruction w => some (32, w.toNat)
    | _ => none

/-- Whether a 32-bit table word is a control-core word: its top six bits are zero, and it is not nop (R35, R264). -/
def isRvWord (w : BitVec 32) : Bool := w.extractLsb' 26 6 == 0 && w &&& 0x3FFFFF#32 != 0

/-- The step the decoder reads from a table word: a 24-bit move word or a 32-bit control-slot word, laid out in the bundle
that holds only that slot, or a 32-bit control-core word. -/
def decodeTableWord (nbits w : Nat) : Option Instr :=
  if nbits = 24 then
    match decodeMove (BitVec.ofNat 24 w) with
    | .ok _ => (decodeBundleBytes (leBytes 32 (bundleOfMove (BitVec.ofNat 24 w)).toNat)).toOption
    | .error _ => none
  else if nbits = 32 then
    if isRvWord (BitVec.ofNat 32 w) then
      match xzglRow (BitVec.ofNat 32 w) with
      | some _ => some (decodeRv (BitVec.ofNat 32 (leWord (leBytes 4 w))))
      | none => none
    else
      match decodeCtl (BitVec.ofNat 32 w) with
      | .ok _ => (decodeBundleBytes (leBytes 32 (bundleOfCtl (BitVec.ofNat 32 w)).toNat)).toOption
      | .error _ => none
  else none

end Sys2Proof
end

