-- ==== Sys2Proof/Config.lean ====
section
/-! DEFINITION. The free values: what spec/ leaves open and each part or run decides. Each is a constant with no body, so no
proof can see what it is (log 2). -/

namespace Sys2Proof.Config

/-- A free natural number, drawn with `State.free` as its argument: a best-effort delay (R174), a time of an engine (R320) or
of firmware (R321), a choice no rule fixes (R78, R196, R232, R234). -/
opaque freeNat : Nat → Nat

/-- The free swap time of part `i` of exchange `x` within its latency (R78). -/
opaque swapTime (x i : Nat) : Nat

/-- The 32-byte private key of the device's Ed25519 key pair, which the ROM derives from devseed by no stated rule (R298). -/
opaque deviceKey (devseed : List Byte) : BitVec 256

/-- The device certificate that Gulhorn signed at manufacture for a public key (R298). -/
opaque certificate (pub : List Byte) : List Byte

/-- The entries of a section whose layout no rule gives (recipes, type 4, and slot tables, type 6): key and value pairs of the
section's bytes (R305). -/
opaque sectionData (type : Nat) (bytes : List Byte) : List (Nat × Nat)

/-- What a job plan's bytes declare; no rule gives its layout (R246 to R248, R252): the launches' 64-byte descriptors, the sizes
of levels (level, prefix, size), the queues' priorities, and predecessors (launch, predecessor). -/
opaque plan (bytes : List Byte) : List (List Byte) × List (Nat × Nat × Nat) × List (Nat × Nat) × List (Nat × Nat)

/-- The bytes of a file that a Callote command line names; files are the outside's (R245, R301). -/
opaque file (name : List Byte) : List Byte

/-- The text of the lines that Callote prints: no rule gives the form of each (R12, R301). The argument lists what is printed, each
with its kind, bytes and words. -/
opaque printed (lines : List (Nat × List Byte × List (BitVec 64))) : List Byte

/-- The refusal code that follows result 5 of a management message, for what the rule at fault reports; no rule gives its values (R301). -/
opaque refusalCode (report : List (BitVec 64)) : BitVec 32

/-- Whether CC3 answers a message with result 6, busy, by the number of what has left the package before; no rule says when (R301). -/
opaque busy (n : Nat) : Bool

/-- The 1588 time of day a number of clocks after the port's last message gave it (R302). -/
opaque timeOfDay (last : BitVec 80) (clocks : Nat) : BitVec 80

/-- Whether a gallery or stacks frame, by its number in the physical address space, fails its self-test at boot (R293). -/
opaque faultyFrame (frame : Nat) : Bool

/-- How many 2 MiB frames the control complex reserves in the stacks as a staging area (R303). -/
opaque stagingFrames : Nat

/-- The energy in mJ that a launch's cores are metered at (R259). -/
opaque energy (launch endCycle : Nat) : BitVec 32

/-- The package's power in W at a clock, averaged over the last 850 cycles (R255): no rule gives what an operation draws. -/
opaque watts (clock : Nat) : BitVec 16

/-- Whether a logical core fails its self-test at boot: a property of the part (R288, R293). -/
opaque faulty (core : Nat) : Bool

/-- Whether the spare core of a router fails its self-test at boot (R289, R293). -/
opaque faultySpare (router : Nat) : Bool

/-- Whether a tie between two nonzero values of a K8 format of precision 1 goes up: neither significand has a least
significant bit of 0 (R15), by the lower code. -/
opaque k8TieUp (code : Nat) : Bool

end Sys2Proof.Config
end

