-- ==== Sys2Proof/Machine/Flags.lean ====
section
/-! DEFINITION. The arithmetic flags of R97 and the flag rules of rounding (R15, R96): which flags an exact value and its
rounded result set. -/

namespace Sys2Proof.Machine

/-- invalid (R97). -/
def flNv : BitVec 5 := 1
/-- divide by zero (R97). -/
def flDz : BitVec 5 := 2
/-- overflow (R97). -/
def flOf : BitVec 5 := 4
/-- underflow (R97). -/
def flUf : BitVec 5 := 8
/-- inexact (R97). -/
def flNx : BitVec 5 := 16

/-- A flag set when the condition holds. -/
def flIf (c : Bool) (f : BitVec 5) : BitVec 5 := if c then f else 0

/-- Flags of a finite result of R15 and R96: inexact, and underflow when the exact magnitude `m * 2^e` lies below 2^-126. -/
def flRound (m : Nat) (e : Int) (inexact : Bool) : BitVec 5 :=
  flIf inexact flNx ||| flIf (inexact && decide (m ≠ 0) && decide (e + (m.log2 + 1 : Nat) ≤ -126)) flUf

/-- Flags of an overflow to infinity (R15). -/
def flOverflow : BitVec 5 := flOf ||| flNx

end Sys2Proof.Machine
end

