-- ==== Sys2Proof/Machine/State.lean ====
section
/-! DEFINITION. The state of a Zargil Z9 package as plain data: contexts, cores, storage levels, the array, engines, group
time, the control complex, the outside world; and the state after power-on. -/

namespace Sys2Proof.Machine

/-- A finite map by natural number: entries in rising key order; a key that is not listed has the map's default. -/
abbrev SMap (α : Type) := List (Nat × α)

/-- Memory: (address, byte) pairs in rising address order, none holding 0, which is what an unlisted address reads as
(R70, log 5). -/
abbrev Memory := List Host.Cell

/-- A scalar value with its format tag and poison (R22, R280). -/
structure SVal where
  val : Word
  tag : Tag
  poison : Bool
  deriving DecidableEq, Repr

/-- A vector value with its tag, lane poison, void bit and format mark (R22, R74, R280). -/
structure VVal where
  bits : Lanes
  tag : Tag
  poison : Mask
  void : Bool
  mark : Bool
  deriving DecidableEq, Repr

/-- What a result latch or an operand port takes. -/
inductive LVal where
  | s (v : SVal)
  | v (v : VVal)
  deriving DecidableEq, Repr

/-- Zero with tag raw (R7). -/
def SVal.zero : SVal := ⟨0, 0, false⟩
/-- Zero lanes with tag raw (R7). -/
def VVal.zero : VVal := ⟨0, 0, 0, false, false⟩

/-- One loop level (R56). -/
structure Loop where
  remain : BitVec 64
  iter : BitVec 32
  act : Bool
  rot : Bool
  stm1 : BitVec 3
  start : BitVec 13
  stop : BitVec 13
  deriving DecidableEq, Repr

/-- An inactive loop level. -/
def Loop.zero : Loop := ⟨0, 0, false, false, 0, 0, 0⟩

/-- Spill state (R84). -/
structure Spill where
  obase : BitVec 64
  olimit : BitVec 32
  depth : BitVec 64
  cfol : BitVec 8
  cbase : BitVec 21
  prog : BitVec 7
  deriving DecidableEq, Repr

/-- Spill state without a carve-out (R85). -/
def Spill.zero : Spill := ⟨0, 0, 0, 0, 0, 0⟩

/-- What a checkpoint of R213 snapshots of a context. Latches and ports are keyed `8 * unit + number`; Q is a bit each,
bit 0 unused; `masks` holds the mask-stack entries below the depth, `above` those from the depth up (R123). -/
structure Regs where
  s : SMap SVal
  v : SMap VVal
  q : BitVec 16
  m : SMap Mask
  sport : SMap SVal
  vport : SMap VVal
  slatch : SMap SVal
  vlatch : SMap VVal
  loops : SMap Loop
  floor : BitVec 3
  depth : BitVec 3
  base : BitVec 5
  masks : List Mask
  above : List Mask
  recipe : SMap (BitVec 12)
  flags : BitVec 5
  budget : BitVec 64
  spill : Spill
  xcnt : BitVec 64
  deriving DecidableEq, Repr

/-- The register state of R7. -/
def Regs.zero : Regs :=
  { s := [], v := [], q := 0, m := [], sport := [], vport := [], slatch := [], vlatch := [], loops := [], floor := 0,
    depth := 0, base := 0, masks := [], above := [], recipe := [], flags := 0, budget := 0, spill := Spill.zero, xcnt := 0 }

/-- An arrival counter (R189). -/
structure Arrival where
  gen : BitVec 16
  recv : BitVec 11
  exp : BitVec 11
  first : BitVec 6
  count : BitVec 7
  base : BitVec 5
  armed : Bool
  deriving DecidableEq, Repr

/-- An arrival counter at task start (R7). -/
def Arrival.zero : Arrival := ⟨0, 0, 0, 0, 0, 0, false⟩

/-- A message in a mailbox: source context and core, and 64 bytes (R188), and the clock of its arrival. -/
structure Mail where
  srcCtx : BitVec 2
  srcCore : BitVec 9
  data : BitVec 512
  arrived : Nat
  deriving DecidableEq, Repr

/-- An entry of a phase buffer (R177): the part's virtual and physical address. -/
structure PbEntry where
  va : Nat
  pa : Nat
  data : BitVec 128
  mask : BitVec 16
  poison : Bool
  task : BitVec 20
  deriving DecidableEq, Repr

/-- An exact dyadic value `m * 2^e`, or a NaN or infinity (R109, R110). -/
structure Dy where
  bad : Bool
  m : Int
  e : Int
  deriving DecidableEq, Repr

/-- A sum-file entry or gradient accumulator (R143). -/
structure Entry where
  value : BitVec 48
  wov : Bool
  nan : Bool
  rho : BitVec 8
  deriving DecidableEq, Repr

/-- A cleared entry. -/
def Entry.zero : Entry := ⟨0, false, false, 0⟩

/-- A feed or push pipe with its codex copy (R142, R144). -/
structure Pipe where
  base : BitVec 64
  stride : BitVec 64
  progress : BitVec 32
  live : BitVec 32
  cv : Bool
  codex : BitVec 512
  deriving DecidableEq, Repr

/-- The reset values of R142. -/
def Pipe.zero : Pipe := ⟨0, 0, 0, 0, false, 0⟩

/-- The array of a core (R139): weight rows keyed `256 * course + row`, the sum file by entry, accumulator rows keyed
`256 * course + k`. -/
structure Arr where
  weights : SMap (List Dy)
  resid : SMap (BitVec 23)
  sums : SMap (List Entry)
  accs : SMap (List Entry)
  pipes : SMap Pipe
  anchor : BitVec 10
  grad : Bool
  deriving DecidableEq, Repr

/-- The reset values of R140. -/
def Arr.zero : Arr := ⟨[], [], [], [], [], 0, false⟩

/-- What the undo log keeps: a 16-byte part with its poison, or a folio's mark and blank flag (R215). -/
inductive Undo where
  | part (a : Nat) (data : BitVec 128) (poison : Bool)
  | mark (folio : Nat) (mark : BitVec 32) (used : Bool)
  deriving DecidableEq, Repr

/-- A checkpoint region of a context (R212 to R218). `stage` is 0 outside a rollback, 1 in rerun 1 and 2 in rerun 2; `rerunAt` is the
clock at which a rerun issued the CK bundle. `sums` and `accs` are the shadows of the array's entries (R213); `landed` and `stored` are
the results and carrel store words of this cycle, in the order in which the signature takes them after the cycle's moves (R217). -/
structure Region where
  isOpen : Bool
  startPos : Nat
  start : BitVec 13
  undo : List Undo
  snap : Option (Regs × Arr × SMap Bool)
  sums : SMap (List Entry)
  accs : SMap (List Entry)
  landed : List (Nat × List (BitVec 64))
  stored : List (Nat × BitVec 64)
  rerunAt : Nat
  stage : Nat
  bundles : Nat
  sig : BitVec 64
  bundles1 : Nat
  sig1 : BitVec 64
  detectPos : Nat
  detectClock : Nat
  taint : List Nat
  deriving DecidableEq, Repr

/-- No region. -/
def Region.zero : Region := ⟨false, 0, 0, [], none, [], [], [], [], 0, 0, 0, 0, 0, 0, 0, 0, []⟩

/-- What a waiting context waits for (R50, R51, R54, R160, R175, R234); a sysc waits for the service that it has posted, by the place of
its post; a fence of the stacks for the accesses issued before its bundle, by their place of issue. -/
inductive Wait where
  | eng (e : BitVec 3) (n : BitVec 64)
  | arr (k : BitVec 3)
  | xcnt (n : BitVec 64)
  | weq (a v : BitVec 64)
  | wne (a v : BitVec 64)
  | waitc (c : BitVec 64)
  | untilPos (c : Nat)
  | boundary
  | service (seq : Nat)
  | carrel
  | hbm (loads stores : Bool) (before : Nat)
  deriving DecidableEq, Repr

/-- The state of a context (R162, R276). -/
inductive Status where
  | noTask
  | ready
  | waiting (w : Wait)
  | halted
  | stopped
  deriving DecidableEq, Repr

/-- The task on a context (R246, R276, R279). -/
structure Task where
  launch : BitVec 64
  id : BitVec 20
  timed : Bool
  prio : BitVec 3
  supervisor : BitVec 2
  deriving DecidableEq, Repr

/-- The trap record (R271). -/
structure Record where
  valid : Bool
  words : SMap (BitVec 64)
  deriving DecidableEq, Repr

/-- The reads of an ldlive that waits for them (R73): the number that its loads in flight carry, and the count word and the codex once
landed, each with the address of a poisoned part. -/
structure LiveRead where
  id : Nat
  count : Option (BitVec 64 × Option (BitVec 64))
  codex : Option (BitVec 512 × Option (BitVec 64))
  deriving DecidableEq, Repr

/-- A context (R7, R285). `yieldFor` is the clock for whose choices it has yielded (R52). `held` is the wait that a trap has interrupted:
a bundle that fails legality or the budget traps while its context waits, and the wait goes on after the return (R18, R50, R64). `engWalk`
is the clock until which an engine command waits for the walks of its pages (R225). -/
structure Ctx where
  regs : Regs
  pc : BitVec 13
  seed : BitVec 64
  arr : SMap Arrival
  msgdrop : BitVec 16
  bcdrop : BitVec 16
  mailbox : List Mail
  ecnt : SMap (BitVec 64)
  errs : BitVec 32
  errCode : BitVec 8
  errEng : BitVec 3
  infl : BitVec 4
  region : Region
  lag : Nat
  trapVec : BitVec 14
  record : Record
  pbuf : List PbEntry
  closed : List PbEntry
  pbufLaunch : BitVec 64
  task : Option Task
  issued : Nat
  status : Status
  held : Option Wait
  yieldFor : Nat
  debugStop : Bool
  ptrap : Option (BitVec 6 × BitVec 64 × BitVec 64)
  regBad : List Nat
  readyAt : Nat
  prog : BitVec 8
  ldl : Option LiveRead
  engWalk : Option Nat
  walkBad : Option Nat
  deriving DecidableEq, Repr

/-- A context that holds no task. -/
def Ctx.zero : Ctx :=
  { regs := Regs.zero, pc := 0, seed := 0, arr := [], msgdrop := 0, bcdrop := 0, mailbox := [], ecnt := [], errs := 0,
    errCode := 0, errEng := 0, infl := 0, region := Region.zero, lag := 0, trapVec := 0, record := ⟨false, []⟩, pbuf := [], closed := [],
    pbufLaunch := 0, task := none, issued := 0, status := .noTask, held := none, yieldFor := 0, debugStop := false, ptrap := none,
    regBad := [], readyAt := 0, prog := 0, ldl := none, engWalk := none, walkBad := none }

/-- A storage level, or a core's carrel (R70): its bytes; shelf marks that differ from 0xFFFF_FFFF and folios that are not
blank, by folio number; poisoned parts, by part number. -/
structure Store where
  bytes : Memory
  marks : SMap (BitVec 32)
  used : SMap Bool
  poison : SMap Bool
  deriving DecidableEq, Repr

/-- A level whose slots are all blank. -/
def Store.zero : Store := ⟨[], [], [], []⟩

/-- The memories: the gallery and the stacks by physical address, each core's carrel by offset (R65), and the control
complex's SRAM by address (R262). -/
structure Mem where
  gallery : Store
  hbm : Store
  carrels : SMap Store
  sram : Memory
  deriving DecidableEq, Repr

/-- A row of a core's latency table (R68). -/
structure LatRow where
  lg : Nat
  lx : Nat
  fx : Nat
  deriving DecidableEq, Repr

/-- An entry of a translation cache (R290). -/
structure Tlb where
  job : BitVec 16
  page : Nat
  frame : Nat
  rd : Bool
  wr : Bool
  pinned : Option (BitVec 64)
  deriving DecidableEq, Repr

/-- A core (R4, R139, R162, R288, R290). `prim` is the primary issue of this clock: its context, its bundle, and whether that
holds a carrel access; `primUnits` are the units that it triggers; `full` is whether a second bundle has issued too; `bank` is whether a
burst record of the timed context, or the carrel read of an ldlive that begins to wait, uses the bank cycle of this clock. -/
structure Core where
  imem : SMap (BitVec 256)
  imemBad : List Nat
  suspect : List Nat
  arr : Arr
  ctxs : SMap Ctx
  lat : SMap LatRow
  tlb : List Tlb
  oos : Bool
  retired : Bool
  testFails : Bool
  running : Option Nat
  rrPrimary : Nat
  rrSecond : Nat
  prim : Option (Nat × BitVec 256 × Bool)
  primUnits : List Nat
  full : Bool
  bank : Bool
  deriving DecidableEq, Repr

/-- A core after power-on. -/
def Core.zero : Core :=
  { imem := [], imemBad := [], suspect := [], arr := Arr.zero, ctxs := [], lat := [], tlb := [],
    oos := false, retired := false, testFails := false, running := none, rrPrimary := 3, rrSecond := 3, prim := none,
    primUnits := [], full := false, bank := false }

/-- A place in a level: 1 the core's carrel, 2 the gallery, 3 the stacks; its virtual and physical address. -/
structure Loc where
  lvl : Nat
  core : Nat
  va : Nat
  pa : Nat
  deriving DecidableEq, Repr

/-- The exact sum and maximum of a feed's terms in one column, its flags and residue (R109, R110, R112). -/
structure ColTerm where
  sum : Int
  max : Int
  wov : Bool
  nan : Bool
  res : Nat
  deriving DecidableEq, Repr

/-- An engine command (R225): its eu code, issuing core and context, task, job and launch, block and flags, the place of its issue in the
agenda's order, whether it releases, whether its results have been written, the memories as it became current (log 12), the frames of its
regions' pages as they were translated at issue, with their rd bits, and the context whose commands in flight it is counted among (R227). -/
structure Cmd where
  code : Nat
  core : Nat
  ctx : Nat
  task : BitVec 20
  job : BitVec 16
  launch : BitVec 64
  block : BitVec 512
  flags : BitVec 7
  id : Nat
  releases : Bool
  done : Bool
  snap : Option Mem
  frames : SMap (Nat × Bool)
  owner : Nat × Nat
  deriving DecidableEq, Repr

/-- An engine: its current and shadow commands, and commands that wait at its input (R223, R230). -/
structure Engine where
  cur : Option Cmd
  shadow : Option Cmd
  queue : List Cmd
  deriving DecidableEq, Repr

/-- An idle engine. -/
def Engine.zero : Engine := ⟨none, none, []⟩

/-- Something in flight: what happens when its due cycle comes. -/
inductive Ev where
  | land (unit : Nat) (z y : Option LVal) (fl : BitVec 5)
  | write (cells : List (Nat × Byte)) (pois : List (Nat × Bool)) (dig : Option (BitVec 64 × List (Nat × Nat)))
  | cas (a : Nat) (b t : BitVec 64)
  | fill (reg : Nat) (v : VVal)
  | live (id : Nat) (codex : Bool) (v : BitVec 512) (bad : Option (BitVec 64))
  | xch (leaf : Bool) (a b : Loc)
  | vac (a : Loc)
  | setm (a : Loc) (mark : BitVec 32)
  | recipe (i : Nat) (v : BitVec 12)
  | ctxWrite (i : Nat) (t : BitVec 64)
  | seed (v : BitVec 64)
  | xst
  | ecnt (k : BitVec 4)
  | ctxRead (i : BitVec 9)
  | pipe (p field : Nat) (v : BitVec 64)
  | codex (p : Nat) (v : BitVec 512) (ok : Bool)
  | anchor (v : BitVec 10)
  | mxst (item : Nat)
  | resid (c : Nat) (v : BitVec 23)
  | pushRow (c j : Nat) (b16 : Bool) (row : List Dy)
  | feedSum (e : Nat) (op : Nat) (acc : Bool) (cols : List ColTerm)
  | gfeedSum (c : Nat) (b16 : Bool) (anchor : BitVec 10) (xs ys : List Dy)
  | clrSum (e : Nat)
  | clrAcc (c : Nat)
  | spill (unit : Nat) (fill : Bool) (reg : Nat) (v : VVal) (tag : Tag) (last : Bool) (pc : BitVec 13) (j : Nat)
  | redux (code : Nat) (x : BitVec 64) (a : Loc) (phase : BitVec 32) (launch : BitVec 64)
  | msg (dstCore dstCtx : Nat) (mail : Mail) (launch : BitVec 64)
  | bcast (dstCore dstCtx k : Nat) (gen : BitVec 16) (i : Nat) (data : BitVec 128) (poison : Bool) (launch : BitVec 64)
  | bcastDone (ctr : Nat)
  | voidTaken (port : Nat)
  | arm (k : Nat) (c : Arrival)
  | engAcquire (c : Cmd)
  | engStart (e : Nat)
  | engEnd (e : Nat)
  | engRelease (c : Cmd)
  | bankWake (bank : Nat)
  | bankAwake (bank : Nat)
  | walk (page : Nat)
  | supervisor (cc : Nat)
  | taskStart (launch : BitVec 64) (t : Nat) (core ctx : Nat)
  | waveStart (launch : BitVec 64) (t : Nat) (core ctx : Nat)
  | overrun (launch : BitVec 64)
  | boundary (launch : BitVec 64)
  | launchDone (launch : BitVec 64)
  | release
  | takeover (failed : Nat)
  | service (n : BitVec 16) (args : List (BitVec 64)) (launch : BitVec 64)
  | preempt (save : Nat)
  | imageSave (save : Nat)
  | coreReset
  | selfTest
  | holdReq (cause : BitVec 3) (d : Option Nat)
  | endNotice (cause : BitVec 3) (d : Nat)
  | thermalPeriod
  | rerunCompare
  | arrival (launch : BitVec 64) (queue prio : BitVec 8) (dep : Option (BitVec 32))
  deriving DecidableEq, Repr

/-- An entry of the agenda: due at a group count, or at a clock; the context it belongs to; its access level for fences (0
none) and whether it writes; the cycle its latency states
(R174); its order of issue. -/
structure Pending where
  due : Nat
  onClock : Bool
  core : Nat
  ctx : Nat
  lvl : Nat
  wr : Bool
  stated : Nat
  seq : Nat
  sched : Bool
  ev : Ev
  deriving DecidableEq, Repr

/-- What the step at hand acts on: a due entry of the agenda, or an input (log 8). -/
inductive Cause where
  | none
  | due (p : Pending)
  | input (x : Input)
  deriving DecidableEq, Repr

/-- Which agent moves next (log 8). -/
inductive Turn where
  | idle
  | ctx (core ctx : Nat)
  | cc (n : Nat)
  | event
  deriving DecidableEq, Repr

/-- A hold request (R209): its cause (6 for a peer's), clock and count, and the clock it is over, once noticed. -/
structure Hold where
  cause : BitVec 3
  clock : Nat
  count : Nat
  doneAt : Option Nat
  peer : Nat
  stop : Bool
  deriving DecidableEq, Repr

/-- The group clock of the package (R195 to R211). `tune` is 1 once a tune of +1 has issued, 2 in the clock in which the count stands,
3 once a tune of -1 has issued (R200). -/
structure GroupState where
  desync : Bool
  due : BitVec 2
  frozen : Bool
  leader : Bool
  applied : BitVec 16
  refused : BitVec 16
  offset : BitVec 16
  hLat : Nat
  members : List (BitVec 64)
  far : List (Nat × Nat)
  holds : List Hold
  holdCount : BitVec 32
  causes : BitVec 8
  tune : Nat
  frozenAt : Nat
  paced : Bool
  deriving DecidableEq, Repr

/-- A Dratrix port (R202, R206): its status word, lock, the frames sent and arrived, by frame number. -/
structure Port where
  voids : BitVec 16
  chk : BitVec 8
  misplaced : BitVec 8
  vtaken : Bool
  bound : Option (BitVec 64)
  core : BitVec 9
  ld : BitVec 12
  locked : Bool
  dead : Bool
  sent : List Frame
  arrived : List Frame
  deriving DecidableEq, Repr

/-- Whether a port's link is locked in the group, so that it has an Ld, which is no 0 (R202). -/
def Port.linked (x : Port) : Bool := x.locked && x.ld != 0

/-- A port before link training. -/
def Port.zero : Port := ⟨0, 0, 0, false, none, 0, 0, false, false, [], []⟩

/-- A gallery bank (R83): 0 awake, 1 gated, 2 waking; the clock of its last access; the writes queued while it wakes. -/
structure Bank where
  state : Nat
  last : Nat
  queue : List (List (Nat × Byte) × List (Nat × Bool))
  deriving DecidableEq, Repr

/-- A claim on a gallery folio (R183, R240). -/
structure Claim where
  core : Nat
  launches : List (BitVec 64)
  deriving DecidableEq, Repr

/-- An open phase boundary (R176, R180): its opening count, window and scope, the clock its merge finishes, and the issue order
that its closing had. -/
structure Boundary where
  opened : Nat
  window : Nat
  scope : Nat
  merged : Nat
  overrun : Bool
  final : Bool
  closed : Bool
  joined : List (Nat × Nat)
  mark : Nat
  deriving DecidableEq, Repr

/-- A launch of the launch status table (R248, R251, R259), with its 64-byte descriptor. `gone` lists the tasks that have ended here,
`ptraps` the traps that pre-empted tasks have yet to take (R179). -/
structure Launch where
  descriptor : List Byte
  kernel : Nat
  image : Nat
  queue : BitVec 8
  timed : Bool
  strict : Bool
  ctxMask : BitVec 4
  energy : BitVec 16
  seed : BitVec 64
  tasks : Nat
  kick : BitVec 16
  budget : BitVec 64
  colophon : BitVec 64
  placement : List (Nat × Nat)
  eligible : BitVec 512
  params : SMap (BitVec 64)
  preds : List (BitVec 64)
  ports : List (Nat × Nat)
  far : List (Nat × Nat)
  slots : SMap (BitVec 64)
  state : Nat
  enqueued : Bool
  ended : Nat
  completed : Nat
  faulted : Nat
  faults : Nat
  skew : BitVec 8
  ovr : BitVec 8
  defer : Bool
  conflict : Bool
  preempted : Bool
  coreLost : Bool
  cancelled : Bool
  t0 : Nat
  endCycle : Nat
  digest : BitVec 64
  phase : BitVec 32
  lastScope : Nat
  boundary : Option Boundary
  holdCycles : Nat
  qseq : BitVec 32
  written : List Byte
  started : List (Nat × Nat × Nat)
  waves : List (Nat × Nat × Nat × Nat)
  supervisor : BitVec 2
  conflicts : List (BitVec 20 × BitVec 48 × BitVec 20)
  gone : List Nat
  ptraps : List (BitVec 20 × BitVec 6 × BitVec 64 × BitVec 64)
  deriving DecidableEq, Repr

/-- A level of the job above launches (R247, R251). -/
structure Level where
  count : Nat
  size : Nat
  cancelled : Bool
  deriving DecidableEq, Repr

/-- A queue (R252, R260): its priority, its concordance hash, the sequence numbers of its last colophon and of the last one
chained, and the launch of the latter. -/
structure Queue where
  prio : BitVec 3
  hash : List Byte
  seq : BitVec 32
  chained : BitVec 32
  launch : BitVec 64
  deriving DecidableEq, Repr

/-- A control core (R241, R263): integer registers, pc (bytes), privilege, machine CSRs, LR reservation, instruction memory; `done` counts
the steps that it has taken. -/
structure CC where
  x : SMap (BitVec 64)
  pc : BitVec 64
  machine : Bool
  csr : SMap (BitVec 64)
  reserved : Option Nat
  imem : Memory
  imemSize : Nat
  imemBad : List Nat
  active : Bool
  standby : Bool
  stopped : Bool
  debugStop : Bool
  startPc : Option Nat
  takePc : Option Nat
  readyAt : Nat
  trapq : List (Nat × Nat)
  done : Nat
  base : Nat
  inv : Option Nat
  deriving DecidableEq, Repr

/-- A control core after power-on. -/
def CC.zero : CC :=
  { x := [], pc := 0, machine := true, csr := [], reserved := none, imem := [], imemSize := 0, imemBad := [], active := false,
    standby := false, stopped := true, debugStop := false, startPc := none, takePc := none, readyAt := 0, trapq := [], done := 0,
    base := 0, inv := none }

/-- A task's context record of a kernel (R304). -/
structure KCtx where
  entry : BitVec 13
  timed : Bool
  n : BitVec 2
  cfol : BitVec 8
  cbase : BitVec 21
  deriving DecidableEq, Repr

/-- A data section of a kernel (R165, R305): its level, address and bytes. -/
structure Section where
  lvl : Nat
  addr : Nat
  bytes : List Byte
  deriving DecidableEq, Repr

/-- A kernel of a loaded image (R304, R305, R316); its code loads at bundle `base`, control code at byte `ctlBase`. -/
structure Kernel where
  name : List Byte
  control : Bool
  base : Nat
  code : List (BitVec 256)
  ctl : List Byte
  ctlBase : Nat
  ctlMask : BitVec 4
  ctxs : List KCtx
  startIdx : BitVec 16
  takeIdx : BitVec 16
  params : List (BitVec 64)
  recipes : SMap (BitVec 12)
  data : List Section
  marks : List (Nat × BitVec 32)
  slots : SMap (BitVec 64)
  deriving DecidableEq, Repr

/-- A loaded job image with its key index, digest and symbols (R296, R297, R304). -/
structure Image where
  key : Nat
  kernels : List Kernel
  digest : List Byte
  firmware : Bool
  version : BitVec 16
  symbols : List (List Byte × Int)
  deriving DecidableEq, Repr

/-- A word of the spare map (R289). -/
structure Spare where
  used : Bool
  sfail : Bool
  sub : BitVec 4
  out : BitVec 16
  deriving DecidableEq, Repr

/-- What leaves the package on the management port or on Callote's console: a type or verb and its bytes or words; the address and port that
it goes to (R301), and its stamp of group count and time of day (R302). -/
structure Output where
  kind : Nat
  key : BitVec 8
  counter : BitVec 64
  bytes : List Byte
  words : List (BitVec 64)
  dst : BitVec 144
  stamp : BitVec 64 × BitVec 80
  deriving DecidableEq, Repr

/-- A delay that Callote has injected (R222): core, context, bundle, cycles, and the launch that it holds for, none until the
next launch starts. -/
structure Delay where
  core : Nat
  ctx : Nat
  bundle : Nat
  cycles : Nat
  launch : Option (BitVec 64)
  deriving DecidableEq, Repr

/-- Boot, security, power and the outside world (R293 to R309). `stage` is 0 before boot, 1 in recovery mode, 2 booted, 3 tripped;
`downTill` is the clock at which CC3 is back from a reboot; `timeAt` the clock of the last 1588 message; `session` whether a Callote session
is open (R299); `device` the private key of the device (R298); `area` the first frame of the staging area in the stacks (R303). -/
structure Outside where
  stage : Nat
  downTill : Nat
  flash : Memory
  fuses : Memory
  epoch : BitVec 24
  fwver : BitVec 16
  records : List (List Byte)
  measure : List Byte
  last : SMap (BitVec 40)
  replies : SMap Output
  out : List Output
  staging : SMap Byte
  fwStaging : SMap Byte
  time : BitVec 80
  timeAt : Nat
  session : Bool
  device : List Byte
  area : Nat
  tj : Int
  thermal : Nat
  images : List Image
  passed : List (Nat × Nat × Nat × Nat)
  breaks : List StopPoint
  watches : List WatchKind
  tagMiss : List (Nat × Nat × Nat × BitVec 16)
  residue : List (Nat × Nat × Nat)
  delays : List Delay
  steps : List (Nat × Nat × Nat)
  till : Option Nat
  deriving DecidableEq, Repr

/-- The control complex (R242 to R270). `noCandidate` is whether the last takeover found no candidate (R263). -/
structure Complex where
  ccs : SMap CC
  zjtail : BitVec 64
  zjhead : BitVec 64
  fifo : List (BitVec 64)
  failed : BitVec 2
  tko : Bool
  oos : BitVec 4
  live : Option Nat
  zplim : BitVec 9
  zpmeas : BitVec 16
  starts : List (Nat × Nat)
  noCandidate : Bool
  saved : List (BitVec 64 × BitVec 20 × Nat)
  launches : SMap Launch
  levels : SMap Level
  queues : SMap Queue
  kick : BitVec 4096
  rekick : BitVec 4096
  spare : SMap Spare
  deriving DecidableEq, Repr

/-- The package. `tables` holds the physical address of each page table: key 2 * job for the gallery's, 2 * job + 1 for the stacks'
(R291, log 19). -/
structure State where
  clock : Nat
  count : BitVec 64
  gs : GroupState
  ports : SMap Port
  free : Nat
  turn : Turn
  cause : Cause
  inputs : List Input
  agenda : List Pending
  tried : List (Nat × Nat)
  cores : SMap Core
  mem : Mem
  claims : SMap Claim
  banks : SMap Bank
  tables : SMap Nat
  sliceMap : SMap Nat
  engines : SMap Engine
  slots : SMap (BitVec 64)
  netctr : SMap (BitVec 64)
  lastPacket : SMap (Nat × Packet)
  ctl : Complex
  out : Outside
  deriving DecidableEq, Repr

/-- Why the machine stops. No step of the model ends in a fault (NOTES.md, '## Stops'). -/
inductive Fault where
  /-- Raised by no step: an access to an address that does not exist takes a trap (R65) or an exception (R241) instead.
  Safe: a stop allows no false claim about a next state. -/
  | noSuchAddress
  deriving DecidableEq, Repr

/-- Why a step has no meaning. -/
inductive Refusal where
  /-- Raised by the arm of an instruction that has no meaning yet, by its mnemonic. Safe. -/
  | notModelled (mnemonic : String)
  deriving DecidableEq, Repr

/-- The package after power-on, before BOOT (R293): nothing booted, every slot blank (log 5), no launch, count 0, its own
leader with H = 64 (R196). -/
def State.reset : State :=
  { clock := 0, count := 0
    gs := { desync := false, due := 0, frozen := false, leader := true, applied := 0, refused := 0, offset := 0, hLat := 64,
            members := [], far := [], holds := [], holdCount := 0, causes := 0, tune := 0, frozenAt := 0, paced := false }
    ports := [], free := 0, turn := .idle, cause := .none, inputs := [], agenda := [], tried := []
    cores := [], mem := ⟨Store.zero, Store.zero, [], []⟩, claims := [], banks := [], tables := [], sliceMap := []
    engines := [], slots := [], netctr := [], lastPacket := []
    ctl := { ccs := [], zjtail := 0, zjhead := 1, fifo := [], failed := 0, tko := false, oos := 0, live := none,
             zplim := 340, zpmeas := 0, starts := [], noCandidate := false, saved := [], launches := [], levels := [], queues := [],
             kick := 0, rekick := 0,
             spare := [] }
    out := { stage := 0, downTill := 0, flash := [], fuses := [], epoch := 0, fwver := 0, records := [], measure := List.replicate 64 0,
             last := [], replies := [], out := [], staging := [], fwStaging := [], time := 0, timeAt := 0, session := false,
             device := [], area := 0, tj := 0, thermal := 0,
             images := [], passed := [], breaks := [], watches := [], tagMiss := [], residue := [], delays := [],
             steps := [], till := none } }

end Sys2Proof.Machine
end

