-- ==== Sys2Proof/Machine/Num.lean ====
section
/-! DEFINITION. Numbers to the bit (06_numbers.md): exact values, rounding, FP32, B16, K8, E9 scales, the array window,
fixed-point cells, special functions, and the generator mix. Every value is exact integer arithmetic until one rounding. -/

namespace Sys2Proof.Machine

/-! ### Helpers of R15 -/

/-- sext of R15. -/
def sext (x : BitVec 64) (n : Nat) : BitVec 64 := BitVec.ofInt 64 ((x.extractLsb' 0 n).toInt)
/-- zext of R15. -/
def zext (x : BitVec 64) (n : Nat) : BitVec 64 := BitVec.ofNat 64 (x.extractLsb' 0 n).toNat

/-- One round of mix (R15). -/
def mixRound (x : BitVec 64) : BitVec 64 :=
  let x := x ^^^ (x >>> 32)
  x * 0xAEF17502108EF2D9#64

/-- mix(seed, ctr) of R15. -/
def mix (seed ctr : BitVec 64) : BitVec 64 :=
  let x := seed ^^^ (ctr * 0xD1B54A32D192ED03#64)
  let x := mixRound (mixRound (mixRound x))
  x ^^^ (x >>> 29)

/-- sat48 of R15, with its overflow. -/
def sat48 (v : Int) : Int × Bool :=
  if v > 2 ^ 47 - 1 then (2 ^ 47 - 1, true) else if v < -(2 ^ 47) then (-(2 ^ 47), true) else (v, false)

/-- `m * 2^e` rounded toward minus infinity to an integer. -/
def floorShift (m e : Int) : Int := if e ≥ 0 then m * 2 ^ e.toNat else m / 2 ^ (-e).toNat

/-- align48 of R15: the exact product `m * 2^e` at anchor `a`. -/
def align48 (m e a : Int) : Int × Bool := sat48 (floorShift m (e + 40 - a))

/-! ### Lanes -/

/-- Lane `l` of a vector value (R120). -/
def lane (v : Lanes) (l : Nat) : Lane := BitVec.ofNat 32 (v.toNat >>> (32 * l))

/-- Lanes `0 .. n-1` of a function, as one number. -/
def lanesNat (f : Nat → Lane) : Nat → Nat
  | 0 => 0
  | n + 1 => lanesNat f n + (f n).toNat <<< (32 * n)

/-- The vector value whose lane `l` is `f l` (R120). -/
def ofLanes (f : Nat → Lane) : Lanes := BitVec.ofNat 4096 (lanesNat f 128)

/-- A scalar in every lane (R24). -/
def splat (x : Lane) : Lanes := ofLanes fun _ => x

/-- The mask whose bit `l` is `f l`. -/
def maskNat (f : Nat → Bool) : Nat → Nat
  | 0 => 0
  | n + 1 => maskNat f n + (if f n then 1 else 0) <<< n

/-- The lane mask whose bit `l` is `f l`. -/
def ofMask (f : Nat → Bool) : Mask := BitVec.ofNat 128 (maskNat f 128)

/-- All lanes (R123). -/
def allLanes : Mask := BitVec.allOnes 128

/-! ### Exact values and rounding -/

/-- What a floating-point code stands for: a NaN (signalling or not), an infinity, or `(-1)^s * m * 2^e`. -/
inductive FV where
  | nan (sig : Bool)
  | inf (s : Bool)
  | fin (s : Bool) (m : Nat) (e : Int)
  deriving DecidableEq, Repr

/-- The canonical NaN (R96). -/
def cNaN : Lane := 0x7FC00000#32

/-- The value of an FP32 code (R96). -/
def f32 (x : Lane) : FV :=
  let s := x.getLsbD 31
  let ex := (x.extractLsb' 23 8).toNat
  let fr := (x.extractLsb' 0 23).toNat
  if ex = 255 then (if fr = 0 then .inf s else .nan (fr < 2 ^ 22))
  else if ex = 0 then .fin s fr (-149)
  else .fin s (fr + 2 ^ 23) (ex - 150)

/-- A positive value `m * 2^e` rounded to nearest even on the grid of `p` significant bits and quantum at least `2^qmin`:
the result `m' * 2^q` and whether it is inexact. -/
def roundGrid (p : Nat) (qmin : Int) (m : Nat) (e : Int) : Nat × Int × Bool :=
  if m = 0 then (0, qmin, false)
  else
    let q := max (e + (m.log2 + 1 : Nat) - p) qmin
    if q ≤ e then (m <<< (e - q).toNat, q, false)
    else
      let sh := (q - e).toNat
      let fl := m >>> sh
      let rem := m % 2 ^ sh
      let half := 2 ^ (sh - 1)
      let up := rem > half ∨ rem = half ∧ fl % 2 = 1
      (if up then fl + 1 else fl, q, rem ≠ 0)

/-- The FP32 sign bit. -/
def signBit (s : Bool) : Lane := if s then 0x80000000#32 else 0

/-- The FP32 code of `m * 2^q` on the FP32 grid (`m < 2^24 + 1`, `q ≥ -149`), or infinity. -/
def packF32 (s : Bool) (m : Nat) (q : Int) : Lane × Bool :=
  if m < 2 ^ 23 then (signBit s ||| BitVec.ofNat 32 m, false)
  else
    let code := ((q + 150).toNat <<< 23) + (m - 2 ^ 23)
    if code ≥ 255 <<< 23 then (signBit s ||| 0x7F800000#32, true) else (signBit s ||| BitVec.ofNat 32 code, false)

/-- A nonzero value rounded to `p ≤ 24` significant bits and delivered as FP32, with the flags of R15 and R96. -/
def roundTo (p : Nat) (s : Bool) (m : Nat) (e : Int) : Lane × BitVec 5 :=
  let (m', q, nx) := roundGrid p (-149) m e
  let up := (24 - p)
  let (m'', q') := if q - up ≥ -149 then (m' <<< up, q - up) else (m' <<< (q + 149).toNat, (-149 : Int))
  let (r, ov) := packF32 s m'' q'
  if ov then (r, flOverflow) else (r, flRound m e nx)

/-- round_rne to FP32 of a nonzero value (R15, R96). -/
def roundF32 (s : Bool) (m : Nat) (e : Int) : Lane × BitVec 5 := roundTo 24 s m e

/-- round_rne to FP32 of an exact signed value; 0 gives +0 (R15). -/
def roundInt (m : Int) (e : Int) : Lane × BitVec 5 :=
  if m = 0 then (0, 0) else roundF32 (m < 0) m.natAbs e

/-- The signed significand of a finite value. -/
def sgn (s : Bool) (m : Nat) : Int := if s then -(m : Int) else m

/-- The exact sum of two dyadic numbers. -/
def dyAdd (m1 e1 m2 e2 : Int) : Int × Int :=
  if e1 ≤ e2 then (m1 + m2 * 2 ^ (e2 - e1).toNat, e1) else (m1 * 2 ^ (e1 - e2).toNat + m2, e2)

/-- invalid for a signalling NaN. -/
def FV.sig : FV → Bool
  | .nan s => s
  | _ => false

/-- Whether the value is a NaN. -/
def FV.isNan : FV → Bool
  | .nan _ => true
  | _ => false

/-- The sum of two values that are not NaN, rounded once (R96). -/
def addFV (a b : FV) : Lane × BitVec 5 :=
  match a, b with
  | .inf s, .inf s' => if s = s' then (signBit s ||| 0x7F800000#32, 0) else (cNaN, flNv)
  | .inf s, _ => (signBit s ||| 0x7F800000#32, 0)
  | _, .inf s => (signBit s ||| 0x7F800000#32, 0)
  | .fin s m e, .fin s' m' e' =>
    if m = 0 ∧ m' = 0 then (if s = s' then signBit s else 0, 0)
    else
      let (x, ex) := dyAdd (sgn s m) e (sgn s' m') e'
      roundInt x ex
  | _, _ => (cNaN, 0)

/-- The exact product of two values that are not NaN; `none` for zero times infinity. -/
def mulFV (a b : FV) : Option FV :=
  match a, b with
  | .inf s, .inf s' => some (.inf (s ^^ s'))
  | .inf s, .fin s' m _ => if m = 0 then none else some (.inf (s ^^ s'))
  | .fin s m _, .inf s' => if m = 0 then none else some (.inf (s ^^ s'))
  | .fin s m e, .fin s' m' e' => some (.fin (s ^^ s') (m * m') (e + e'))
  | _, _ => none

/-- a * b + c on values, rounded once (R96). -/
def fmaFV (a b c : FV) : Lane × BitVec 5 :=
  if a.isNan || b.isNan then (cNaN, flIf (a.sig || b.sig || c.sig) flNv)
  else
    match mulFV a b with
    | none => (cNaN, flNv)
    | some p => if c.isNan then (cNaN, flIf c.sig flNv) else addFV p c

/-- FP32 sum (R96). -/
def fadd (a b : Lane) : Lane × BitVec 5 :=
  if (f32 a).isNan || (f32 b).isNan then (cNaN, flIf ((f32 a).sig || (f32 b).sig) flNv) else addFV (f32 a) (f32 b)

/-- The code with its sign inverted. -/
def flipSign (x : Lane) : Lane := x ^^^ 0x80000000#32

/-- FP32 difference (R96). -/
def fsub (a b : Lane) : Lane × BitVec 5 := fadd a (flipSign b)

/-- The FP32 result of an exact value that is not NaN. -/
def ofFV : FV → Lane × BitVec 5
  | .nan _ => (cNaN, 0)
  | .inf s => (signBit s ||| 0x7F800000#32, 0)
  | .fin s m e => if m = 0 then (signBit s, 0) else roundF32 s m e

/-- FP32 product (R96). -/
def fmul (a b : Lane) : Lane × BitVec 5 :=
  if (f32 a).isNan || (f32 b).isNan then (cNaN, flIf ((f32 a).sig || (f32 b).sig) flNv)
  else
    match mulFV (f32 a) (f32 b) with
    | none => (cNaN, flNv)
    | some p => ofFV p

/-- FP32 a * b + t with one rounding (R96). -/
def ffma (a b t : Lane) : Lane × BitVec 5 := fmaFV (f32 a) (f32 b) (f32 t)

/-- The order of FP32 codes with -0 below +0 (R126). -/
def ordKey (x : Lane) : Int :=
  let m : Int := (x.extractLsb' 0 31).toNat
  if x.getLsbD 31 then -m - 1 else m

/-- The numeric order of FP32 codes, -0 equal to +0 (R127). -/
def numKey (x : Lane) : Int :=
  let m : Int := (x.extractLsb' 0 31).toNat
  if x.getLsbD 31 then -m else m

/-- A NaN result and its flag when either operand is NaN (R126). -/
def nanFirst (a b : Lane) (r : Lane) : Lane × BitVec 5 :=
  if (f32 a).isNan || (f32 b).isNan then (cNaN, flIf ((f32 a).sig || (f32 b).sig) flNv) else (r, 0)

/-- fmin (R126). -/
def fmin (a b : Lane) : Lane × BitVec 5 := nanFirst a b (if ordKey a ≤ ordKey b then a else b)
/-- fmax (R126). -/
def fmax (a b : Lane) : Lane × BitVec 5 := nanFirst a b (if ordKey a ≥ ordKey b then a else b)
/-- fabs (R96, R126). -/
def fabs (t : Lane) : Lane := if (f32 t).isNan then cNaN else t &&& 0x7FFFFFFF#32
/-- fneg (R96, R126). -/
def fneg (t : Lane) : Lane := if (f32 t).isNan then cNaN else flipSign t

/-- The lane mask of a condition. -/
def truth (c : Bool) : Lane := if c then 0xFFFFFFFF#32 else 0

/-- fcmp under condition c[2:0] (R127). -/
def fcmp (c : Nat) (a t : Lane) : Lane × BitVec 5 :=
  let nan := (f32 a).isNan || (f32 t).isNan
  let sig := (f32 a).sig || (f32 t).sig
  let x := numKey a
  let y := numKey t
  match c with
  | 0 => (truth (!nan && x == y), flIf sig flNv)
  | 1 => (truth (nan || x != y), flIf sig flNv)
  | 2 => (truth (!nan && decide (x < y)), flIf nan flNv)
  | 3 => (truth (!nan && decide (x ≤ y)), flIf nan flNv)
  | 4 => (truth (!nan && decide (x > y)), flIf nan flNv)
  | 5 => (truth (!nan && decide (x ≥ y)), flIf nan flNv)
  | 6 => (truth nan, flIf sig flNv)
  | _ => (truth (!nan), flIf sig flNv)

/-- icmp under condition c[2:0] (R128). -/
def icmp (c : Nat) (a t : Lane) : Lane :=
  match c with
  | 0 => truth (a == t)
  | 1 => truth (a != t)
  | 2 => truth (a.slt t)
  | 3 => truth (a.sle t)
  | 4 => truth (a.ult t)
  | 5 => truth (a.ule t)
  | 6 => truth (t.slt a)
  | _ => truth (t.sle a)

/-- `(-1)^s * m * 2^e` rounded to an integer in a mode of R98: 0 nearest even, 1 toward zero, 2 down, 3 up. -/
def toInteger (mode : Nat) (s : Bool) (m : Nat) (e : Int) : Int × Bool :=
  if e ≥ 0 then (sgn s (m * 2 ^ e.toNat), false)
  else
    let sh := (-e).toNat
    let fl := m / 2 ^ sh
    let rem := m % 2 ^ sh
    let half := 2 ^ (sh - 1)
    let up : Bool :=
      match mode with
      | 0 => decide (rem > half ∨ rem = half ∧ fl % 2 = 1)
      | 1 => false
      | 2 => s && rem != 0
      | _ => !s && rem != 0
    (sgn s (if up then fl + 1 else fl), rem != 0)

/-- fcvti (R98). -/
def fcvti (mode : Nat) (x : Lane) : Lane × BitVec 5 :=
  match f32 x with
  | .nan _ => (0, flNv)
  | .inf s => (if s then 0x80000000#32 else 0x7FFFFFFF#32, flNv)
  | .fin s m e =>
    let (i, nx) := toInteger mode s m e
    if i > 2 ^ 31 - 1 then (0x7FFFFFFF#32, flNv)
    else if i < -(2 ^ 31) then (0x80000000#32, flNv)
    else (BitVec.ofInt 32 i, flIf nx flNx)

/-- icvtf (R98). -/
def icvtf (x : Lane) : Lane × BitVec 5 := roundInt x.toInt 0

/-- frnd (R98). -/
def frnd (mode : Nat) (x : Lane) : Lane :=
  match f32 x with
  | .nan _ => cNaN
  | .inf _ => x
  | .fin s m e =>
    if m = 0 ∨ e ≥ 0 then x
    else
      let (i, _) := toInteger mode s m e
      if i = 0 then signBit s else (roundInt i 0).1

/-! ### B16 (R99) -/

/-- FP32 to B16 by round_rne, with its flags (R99). -/
def toB16 (x : Lane) : BitVec 16 × BitVec 5 :=
  match f32 x with
  | .nan sig => (0x7FC0#16, flIf sig flNv)
  | .inf s => (if s then 0xFF80#16 else 0x7F80#16, 0)
  | .fin s m e =>
    if m = 0 then (if s then 0x8000#16 else 0, 0)
    else
      let (m', q, nx) := roundGrid 8 (-133) m e
      let sb : Nat := if s then 0x8000 else 0
      let code := if m' < 2 ^ 7 then m' else ((q + 134).toNat <<< 7) + (m' - 2 ^ 7)
      if code ≥ 0x7F80 then (BitVec.ofNat 16 (sb + 0x7F80), flOverflow)
      else (BitVec.ofNat 16 (sb + code), flRound m e nx)

/-- B16 to FP32, exactly (R99). -/
def ofB16 (x : BitVec 16) : Lane := x ++ 0#16

/-! ### Format tags and K8 (R94, R100) -/

/-- Whether a tag names a K8 format. -/
def isK8 (t : Tag) : Bool := t.getLsbD 5 && t.extractLsb' 0 3 != 0
/-- Whether a tag is reserved (R94). -/
def tagReserved (t : Tag) : Bool := (!t.getLsbD 5 && t.toNat ≥ 8) || (t.getLsbD 5 && t.extractLsb' 0 3 == 0)
/-- Whether a tag is an array format (R145). -/
def isArrayFmt (t : Tag) : Bool := isK8 t || t == 4 || t == 5 || t == 3

/-- A K8 format: unsigned, with infinities, and the fraction width `t = p - 1` (R94, R100). -/
structure K8 where
  uns : Bool
  infs : Bool
  t : Nat
  deriving DecidableEq, Repr

/-- The K8 format of a tag (R94). -/
def k8Of (tag : Tag) : K8 := ⟨tag.getLsbD 4, tag.getLsbD 3, (tag.extractLsb' 0 3).toNat - 1⟩
/-- The exponent bias of R100. -/
def K8.bias (f : K8) : Int := 2 ^ ((if f.uns then 9 else 8) - (f.t + 1) - 1)
/-- The exponent of the subnormal quantum, 1 - bias - t. -/
def K8.qmin (f : K8) : Int := 1 - f.bias - f.t
/-- The largest finite code L (R100). -/
def K8.top (f : K8) : Nat :=
  match f.uns, f.infs with
  | false, false => 0x7F
  | false, true => 0x7E
  | true, false => 0xFE
  | true, true => 0xFD
/-- The magnitude `m * 2^e` of a finite code of nonnegative sign (R100). -/
def K8.mag (f : K8) (c : Nat) : Nat × Int :=
  let ex := c >>> f.t
  let fr := c % 2 ^ f.t
  if ex = 0 then (fr, f.qmin) else (2 ^ f.t + fr, (ex : Int) - f.bias - f.t)
/-- The top exponent e_top (R100). -/
def K8.eTop (f : K8) : Int := (f.top >>> f.t : Nat) - f.bias
/-- The NaN code (R100). -/
def K8.nan (f : K8) : Nat := if f.uns then 0xFF else 0x80

/-- The value of a K8 code (R100). -/
def K8.value (f : K8) (c : Nat) : FV :=
  if c = f.nan then .nan false
  else
    let s := !f.uns && decide (c ≥ 0x80)
    let m := if f.uns then c else c % 0x80
    if f.infs && m == f.top + 1 then .inf s
    else
      let (mm, e) := f.mag m
      .fin s mm e

/-- Whether `m1 * 2^e1 ≤ m2 * 2^e2` for natural significands. -/
def leMag (m1 : Nat) (e1 : Int) (m2 : Nat) (e2 : Int) : Bool :=
  if e1 ≤ e2 then decide (m1 ≤ m2 * 2 ^ (e2 - e1).toNat) else decide (m1 * 2 ^ (e1 - e2).toNat ≤ m2)

/-- The K8 code of magnitude `m * 2^q` on the format's continued grid. -/
def K8.codeOf (f : K8) (m : Nat) (q : Int) : Nat :=
  if m < 2 ^ f.t then m else ((q - f.qmin + 1).toNat <<< f.t) + (m - 2 ^ f.t)

/-- The code of a magnitude with its sign. -/
def K8.signed (f : K8) (s : Bool) (c : Nat) : Nat := if s && !f.uns && c != 0 then c + 0x80 else c

/-- Whether a magnitude reaches M + ulp(M)/2, where round_rne overflows (R15, R104). -/
def K8.overflows (f : K8) (m : Nat) (e : Int) : Bool :=
  let (mm, me) := f.mag f.top
  leMag (2 * mm + 1) (me - 1) m e

/-- round_rne of a nonzero magnitude onto the K8 grid, below overflow: code and inexact (R15, R104). A tie between two nonzero
values at precision 1 is open. -/
def K8.rne (f : K8) (m : Nat) (e : Int) : Nat × Bool :=
  let (m', q, nx) := roundGrid (f.t + 1) f.qmin m e
  let sh := (q - e).toNat
  let tie := decide (q > e) && m % 2 ^ sh == 2 ^ (sh - 1) && f.t == 0 && (m >>> sh) == 1
  if tie then (f.codeOf (if Config.k8TieUp (f.codeOf 1 q) then 2 else 1) q, nx) else (f.codeOf m' q, nx)

/-- The grid exponent for a magnitude (R105). -/
def K8.grid (f : K8) (m : Nat) (e : Int) : Int := max (e + m.log2 - f.t) f.qmin

/-- floor(a / 2^q + u) with u = r / 2^32, for a = m * 2^e (R105). -/
def stochFloor (m : Nat) (e q : Int) (r : Nat) : Nat :=
  if e ≥ q then m * 2 ^ (e - q).toNat
  else
    let k := (q - e).toNat
    (m * 2 ^ 32 + r * 2 ^ k) / 2 ^ (32 + k)

/-- The random numerator of R105: bits 63:32 of mix(seed, g). -/
def stochBits (seed g : BitVec 64) : Nat := (mix seed g >>> 32).toNat

/-- A finite nonzero value `(-1)^s * m * 2^e` (after scaling) converted to K8 in a rounding mode (R104, R105): code and
flags. -/
def K8.convert (f : K8) (mode : Nat) (r : Nat) (s : Bool) (m : Nat) (e : Int) : Nat × BitVec 5 :=
  let under (c : Nat) (nx : Bool) : Nat × BitVec 5 :=
    (f.signed s c, flIf nx flNx ||| flIf (c == 0) flUf)
  match mode with
  | 0 => if f.overflows m e then (f.signed s f.top, flOverflow) else let (c, nx) := f.rne m e; under c nx
  | 1 =>
    if f.overflows m e then (if f.infs then f.signed s (f.top + 1) else f.nan, flOverflow)
    else let (c, nx) := f.rne m e; under c nx
  | 2 =>
    let q := f.grid m e
    let n := stochFloor m e q r
    let (mm, me) := f.mag f.top
    if !leMag n q mm me then (f.signed s f.top, flOverflow)
    else under (f.codeOf n q) (!(leMag n q m e && leMag m e n q))
  | _ =>
    let q := f.grid m e
    let n := stochFloor m e q 0
    let (mm, me) := f.mag f.top
    if leMag (mm + 1) me m e then (f.signed s f.top, flOverflow)
    else if !leMag n q mm me then (f.signed s f.top, flNx)
    else under (f.codeOf n q) (!(leMag n q m e && leMag m e n q))

/-- One FP32 element converted to K8 at scale S (R104): code, flags, and whether it counts as an underflow (R108). -/
def K8.element (f : K8) (mode : Nat) (r : Nat) (sc : Nat) (x : Lane) : Nat × BitVec 5 × Bool :=
  match f32 x with
  | .nan sig => (f.nan, flIf sig flNv, false)
  | .inf s =>
    if sc = 511 then (f.nan, 0, false)
    else if f.uns && s then (0, flNv, false)
    else if mode = 1 then (if f.infs then (f.signed s (f.top + 1), 0, false) else (f.nan, flNv, false))
    else (f.signed s f.top, flNx, false)
  | .fin s m e =>
    if sc = 511 then (f.nan, 0, false)
    else if m = 0 then (0, 0, false)
    else if f.uns && s then (0, flNv, true)
    else
      let (c, fl) := f.convert mode r s m (e - (sc : Int) + 256)
      (c, fl, c == 0)

/-! ### Integer conversions of vq (R137) -/

/-- One FP32 element converted to an integer in [lo, hi] at scale S (R137): value, flags, underflow count. Where R137 gives invalid and
overflow, a negative x under cvub or an infinite one at scale 511, invalid stands alone (DESIGN CHOICE, log 18). A v that is rounded to another
number sets inexact, of which R137 does not speak (DESIGN CHOICE, log 18). -/
def toSmall (uns : Bool) (mode : Nat) (r : Nat) (sc : Nat) (x : Lane) : Int × BitVec 5 × Bool :=
  let lo : Int := if uns then 0 else -128
  let hi : Int := if uns then 255 else 127
  match f32 x with
  | .nan _ => (0, flNv, false)
  | .inf s =>
    if sc = 511 then (0, flNv, false)
    else if uns && s then (0, flNv, false)
    else (if s then lo else hi, flOf, false)
  | .fin s m e =>
    if m = 0 then (0, if sc = 511 then flNv else 0, false)
    else if sc = 511 ∨ (uns && s) then (0, flNv ||| flUf ||| flNx, true)
    else
      let e' := e - (sc : Int) + 256
      let (i, nx) :=
        if mode = 2 then
          let n := stochFloor m e' 0 r
          (sgn s n, !(leMag n 0 m e' && leMag m e' n 0))
        else if mode = 3 then toInteger 1 s m e'
        else toInteger 0 s m e'
      if i > hi then (hi, flOverflow, false)
      else if i < lo then (lo, flOverflow, false)
      else (i, flIf nx flNx ||| flIf (i == 0) flUf, i == 0)

/-! ### Special functions (R116 to R118) -/

/-- Integer square root by digits: `fuel` bits. -/
def isqrtBits (n : Nat) : Nat → Nat → Nat
  | 0, r => r
  | k + 1, r =>
    let c := r + 2 ^ k
    isqrtBits n k (if c * c ≤ n then c else r)

/-- Integer square root. -/
def isqrt (n : Nat) : Nat := isqrtBits n (n.log2 / 2 + 1) 0

/-- A positive quotient `a / b * 2^e` with at least 60 bits and a sticky low bit. -/
def quot (a b : Nat) (e : Int) : Nat × Int :=
  let n := a <<< (64 + b.log2)
  (2 * (n / b) + (if n % b = 0 then 0 else 1), e - ((64 + b.log2 : Nat) : Int) - 1)

/-- rcpa (R116). -/
def rcpa (x : Lane) : Lane × BitVec 5 :=
  match f32 x with
  | .nan sig => (cNaN, flIf sig flNv)
  | .inf s => (signBit s, 0)
  | .fin s m e =>
    if m = 0 then (signBit s ||| 0x7F800000#32, flDz)
    else
      let (q, qe) := quot 1 m (-e)
      roundTo 12 s q qe

/-- rsqa (R116). -/
def rsqa (x : Lane) : Lane × BitVec 5 :=
  match f32 x with
  | .nan sig => (cNaN, flIf sig flNv)
  | .inf s => if s then (cNaN, flNv) else (0, 0)
  | .fin s m e =>
    if m = 0 then (signBit s ||| 0x7F800000#32, flDz)
    else if s then (cNaN, flNv)
    else
      -- 1/sqrt(m * 2^e) = sqrt(2^(2j) / m') * 2^(-j - h), with e = 2h + parity folded into m'
      let par := (e % 2).toNat
      let h := e / 2
      let m' := m <<< par
      let j : Nat := 48
      let n := 2 ^ (2 * j)
      let r := isqrt (n / m')
      roundTo 12 false (2 * r + (if r * r * m' = n then 0 else 1)) (-(j : Int) - h - 1)

/-- Newton step for the reciprocal (R117). -/
def rcpn (a x : Lane) : Lane × BitVec 5 :=
  match f32 x with
  | .nan sig => (cNaN, flIf sig flNv)
  | .inf _ => (x, 0)
  | .fin _ m _ =>
    if m = 0 then (x, 0)
    else
      let (e, f1) := ffma (flipSign a) x 0x40000000#32
      let (r, f2) := fmul x e
      (r, f1 ||| f2)

/-- A value halved and negated exactly (R117). -/
def negHalf : FV → FV
  | .fin s m e => .fin (!s) m (e - 1)
  | .inf s => .inf (!s)
  | .nan g => .nan g

/-- Newton step for the reciprocal square root (R117). -/
def rsqn (a x : Lane) : Lane × BitVec 5 :=
  match f32 x with
  | .nan sig => (cNaN, flIf sig flNv)
  | .inf _ => (x, 0)
  | .fin _ m _ =>
    if m = 0 then (x, 0)
    else
      let (h, f1) := fmul x x
      let (e, f2) := fmaFV (negHalf (f32 a)) (f32 h) (f32 0x3FC00000#32)
      let (r, f3) := fmul x e
      (r, f1 ||| f2 ||| f3)

/-- floor(ln 2 * 2^128). -/
def ln2c : Nat := 0xb17217f7d1cf79abc9e3b39803f2f6af
/-- floor(2^128 / ln 2). -/
def invLn2c : Nat := 0x171547652b82fe1777d0ffda0d23a7d11

/-- The exponential series: the sum of y^k / k! in units of 2^-128, by fuel. -/
def expSeries (y : Nat) : Nat → Nat → Nat → Nat → Nat
  | 0, _, _, acc => acc
  | n + 1, k, term, acc =>
    let t := term * y / 2 ^ 128 / k
    expSeries y n (k + 1) t (acc + t)

/-- exp2a (R116, R118): the fraction is exact when it has at most 64 bits below the point; a smaller one leaves the result
just above 2^n. -/
def exp2a (x : Lane) : Lane × BitVec 5 :=
  match f32 x with
  | .nan sig => (cNaN, flIf sig flNv)
  | .inf s => (if s then 0 else 0x7F800000#32, 0)
  | .fin s m e =>
    if m = 0 then (0x3F800000#32, 0)
    else if e + (m.log2 : Nat) ≥ 8 then
      (if s then (0, flUf ||| flNx) else (0x7F800000#32, flOverflow))
    else
      let v := sgn s m
      let n : Int := if e ≥ 0 then v * 2 ^ e.toNat else v / 2 ^ (-e).toNat
      let fr : Nat := if e ≥ 0 then 0 else (v % 2 ^ (-e).toNat).toNat
      if fr = 0 then roundTo 12 false 1 n
      else
        -- the fraction in units of 2^-128
        let f := if -e ≤ 128 then fr <<< (128 + e).toNat else fr >>> (-e - 128).toNat
        let y := f * ln2c / 2 ^ 128
        let r := expSeries y 40 1 (2 ^ 128) (2 ^ 128)
        roundTo 12 false (2 * r + 1) (n - 129)

/-- The series of atanh(z) / z: the sum of z2^k / (2k+1) in units of 2^-128. -/
def atanhSeries (z2 : Nat) : Nat → Nat → Nat → Nat → Nat
  | 0, _, _, acc => acc
  | n + 1, k, p, acc =>
    let p' := p * z2 / 2 ^ 128
    atanhSeries z2 n (k + 1) p' (acc + p' / (2 * k + 1))

/-- log2a (R118). -/
def log2a (x : Lane) : Lane × BitVec 5 :=
  match f32 x with
  | .nan sig => (cNaN, flIf sig flNv)
  | .inf s => if s then (cNaN, flNv) else (0x7F800000#32, 0)
  | .fin s m e =>
    if m = 0 then (0xFF800000#32, flDz)
    else if s then (cNaN, flNv)
    else
      let ex : Int := e + (m.log2 : Nat)
      let one := 2 ^ m.log2
      if m = one then roundInt ex 0
      else
        let z := ((m - one) <<< 128) / (m + one)
        let z2 := z * z / 2 ^ 128
        let at_ : Nat := z * atanhSeries z2 64 1 (2 ^ 128) (2 ^ 128) / 2 ^ 128
        let lg : Nat := 2 * at_ * invLn2c / 2 ^ 128
        let v : Int := ex * 2 ^ 128 + lg
        roundTo 12 (v < 0) (2 * v.natAbs + 1) (-129)

/-- fsqrt (R118). -/
def fsqrt (x : Lane) : Lane × BitVec 5 :=
  match f32 x with
  | .nan sig => (cNaN, flIf sig flNv)
  | .inf s => if s then (cNaN, flNv) else (x, 0)
  | .fin s m e =>
    if m = 0 then (x, 0)
    else if s then (cNaN, flNv)
    else
      let n := m <<< (64 + (e % 2).toNat)
      let r := isqrt n
      roundF32 false (2 * r + (if r * r = n then 0 else 1)) (e / 2 - 32 - 1)

/-- fdiv (R118). -/
def fdiv (a b : Lane) : Lane × BitVec 5 :=
  if (f32 a).isNan || (f32 b).isNan then (cNaN, flIf ((f32 a).sig || (f32 b).sig) flNv)
  else
    match f32 a, f32 b with
    | .inf _, .inf _ => (cNaN, flNv)
    | .inf s, .fin s' _ _ => (signBit (s ^^ s') ||| 0x7F800000#32, 0)
    | .fin s _ _, .inf s' => (signBit (s ^^ s'), 0)
    | .fin s m e, .fin s' m' e' =>
      if m' = 0 then (if m = 0 then (cNaN, flNv) else (signBit (s ^^ s') ||| 0x7F800000#32, flDz))
      else if m = 0 then (signBit (s ^^ s'), 0)
      else
        let (q, qe) := quot m m' (e - e')
        roundF32 (s ^^ s') q qe
    | _, _ => (cNaN, 0)

/-- fscl (R118). -/
def fscl (a t : Lane) : Lane × BitVec 5 :=
  match f32 a with
  | .nan sig => (cNaN, flIf sig flNv)
  | .inf _ => (a, 0)
  | .fin s m e =>
    if m = 0 then (a, 0)
    else
      let n := max (-300) (min 300 t.toInt)
      roundF32 s m (e + n)

/-- fexp (R118). -/
def fexp (x : Lane) : Lane :=
  match f32 x with
  | .nan _ => 0x7FFFFFFF#32
  | .inf _ => 0x7FFFFFFF#32
  | .fin _ m e => if m = 0 then 0x80000000#32 else BitVec.ofInt 32 (e + (m.log2 : Nat))

/-! ### Elements of the array (R94, R102, R109) -/

/-- An exact value times a block scale S (R102); S = 511 is NaN. -/
def scaled (v : FV) (sc : Nat) : Dy :=
  if sc = 511 then ⟨true, 0, 0⟩
  else
    match v with
    | .nan _ => ⟨true, 0, 0⟩
    | .inf _ => ⟨true, 0, 0⟩
    | .fin s m e => ⟨false, sgn s m, e + sc - 256⟩

/-- The value of an element's bits under an array format or dqt format (R94, R99, R100). -/
def elemValue (fmt : Tag) (c : Nat) : FV :=
  if fmt = 4 then .fin (c ≥ 128) (if c ≥ 128 then 256 - c else c) 0
  else if fmt = 5 then .fin false c 0
  else if fmt = 3 then f32 (ofB16 (BitVec.ofNat 16 c))
  else (k8Of fmt).value c

/-- One term of the array window for operands x and w at anchor a (R109): value, saturated, NaN. cell-op 1 is absd. -/
def term (op : Nat) (x w : Dy) (a : Int) : Int × Bool × Bool :=
  if x.bad || w.bad then (0, false, true)
  else
    let (m, e) :=
      if op = 1 then let (d, e) := dyAdd x.m x.e (-w.m) w.e; ((d.natAbs : Int), e)
      else (x.m * w.m, x.e + w.e)
    let (v, ov) := align48 m e a
    (v, ov, false)

/-- The residue modulo 255 of an exact integer (R112). -/
def res255 (v : Int) : Nat := (v % 255).toNat

/-- The conversion of R111 of an entry at anchor a. -/
def convertEntry (x : Entry) (a : Int) : Lane × BitVec 5 :=
  if x.nan then (cNaN, flNv) else roundInt x.value.toInt (a - 40)

/-- Whether an entry fails the residue check of R112. -/
def residueFails (x : Entry) : Bool := !x.wov && !x.nan && res255 x.value.toInt != x.rho.toNat

/-! ### Fixed-point cells (R114) -/

/-- floor(x * 2^64) of a finite FP32 value. -/
def fixedOf (s : Bool) (m : Nat) (e : Int) : Int := floorShift (sgn s m) (e + 64)

/-- One rfadd (R114): the new C and flags (bit 0 nv, 1 sp, 2 sn). -/
def cellAdd (c : Int) (fl : BitVec 8) (x : Lane) : Int × BitVec 8 :=
  match f32 x with
  | .nan _ => (c, fl ||| 1)
  | .inf s => (c, fl ||| (if s then 4 else 2))
  | .fin s m e =>
    if leMag 1 63 m e then (c, fl ||| (if s then 4 else 2)) else (c + fixedOf s m e, fl)

/-- The FP32 read of a cell (R114): result and flags. -/
def cellF32 (c : Int) (fl : BitVec 8) : Lane × BitVec 5 :=
  let nv := fl.getLsbD 0
  let sp := fl.getLsbD 1
  let sn := fl.getLsbD 2
  if nv || (sp && sn) then (cNaN, 0)
  else if sp then (0x5F000000#32, flOf)
  else if sn then (0xDF000000#32, flOf)
  else if c ≥ 2 ^ 127 then (0x5F000000#32, flOf)
  else if c < -(2 ^ 127) then (0xDF000000#32, flOf)
  else roundInt c (-64)

/-- The raw read of a cell (R114), 128 bits. Where the table says C and C does not fit lanes 0 to 3, the low 128 bits of C are read (DESIGN
CHOICE, log 18). -/
def cellRaw (c : Int) (fl : BitVec 8) : BitVec 128 :=
  let nv := fl.getLsbD 0
  let sp := fl.getLsbD 1
  let sn := fl.getLsbD 2
  if nv || (sp && sn) then BitVec.ofInt 128 c
  else if sp then BitVec.ofInt 128 (2 ^ 127 - 1)
  else if sn then BitVec.ofInt 128 (-(2 ^ 127))
  else if c ≥ 2 ^ 127 then BitVec.ofInt 128 (2 ^ 127 - 1)
  else if c < -(2 ^ 127) then BitVec.ofInt 128 (-(2 ^ 127))
  else BitVec.ofInt 128 c

end Sys2Proof.Machine
end

