-- ==== Sys2Proof/Machine/Ops.lean ====
section
/-! DEFINITION. The named operations over the state: finite maps, memory, registers, views of the three levels, translation,
operations in flight, taking a trap and returning from one (R38, R65 to R71, R78, R89, R159, R178, R271 to R277, R290). -/

namespace Sys2Proof.Machine

/-! ### Finite maps -/

/-- The value of a key, or the default. -/
def mget {α : Type} (m : SMap α) (d : α) (k : Nat) : α :=
  match m with
  | [] => d
  | (k', v) :: t => if k' = k then v else mget t d k

/-- Writes a key; keys stay in rising order. -/
def mput {α : Type} (m : SMap α) (k : Nat) (v : α) : SMap α :=
  match m with
  | [] => [(k, v)]
  | (k', v') :: t => if k < k' then (k, v) :: (k', v') :: t else if k' = k then (k, v) :: t else (k', v') :: mput t k v

/-- Removes a key. -/
def mdel {α : Type} (m : SMap α) (k : Nat) : SMap α := m.filter fun e => e.1 != k

/-- Whether a key is listed. -/
def mhas {α : Type} (m : SMap α) (k : Nat) : Bool := m.any fun e => e.1 == k

/-! ### Memory (R70, log 5) -/

/-- The byte at an address. -/
def Memory.read (m : Memory) (a : Nat) : Byte :=
  match m with
  | [] => 0
  | (k, b) :: t => if k = a then b else Memory.read t a

/-- Writes a byte; the canonical form is kept. -/
def Memory.write (m : Memory) (a : Nat) (b : Byte) : Memory :=
  match m with
  | [] => if b = 0 then [] else [(a, b)]
  | (k, c) :: t =>
    if a < k then (if b = 0 then (k, c) :: t else (a, b) :: (k, c) :: t)
    else if k = a then (if b = 0 then t else (a, b) :: t)
    else (k, c) :: Memory.write t a b

/-- Whether every entry's address is above `lo`, the addresses rise, and no entry is 0. -/
def Memory.above (lo : Nat) : Memory → Bool
  | [] => true
  | (k, b) :: t => decide (lo ≤ k) && b != 0 && Memory.above (k + 1) t

/-- The canonical form: addresses strictly rising, no entry 0. -/
def Memory.wf (m : Memory) : Bool := Memory.above 0 m

/-- Writes a list of cells, in order. -/
def Memory.writeAll (m : Memory) (cells : List (Nat × Byte)) : Memory :=
  cells.foldl (fun m c => Memory.write m c.1 c.2) m

/-- The little-endian number in `n` bytes at `a` (R13). -/
def Memory.readN (m : Memory) (a : Nat) : Nat → Nat
  | 0 => 0
  | n + 1 => (Memory.read m a).toNat + 256 * Memory.readN m (a + 1) n

/-- The cells of `n` bytes of a number from `a`, the lowest byte first (R13). -/
def cellsOf (a : Nat) : Nat → Nat → List (Nat × Byte)
  | 0, _ => []
  | n + 1, w => (a, BitVec.ofNat 8 w) :: cellsOf (a + 1) n (w / 256)

/-- The cells of a list of bytes from `a`. -/
def cellsOfBytes (a : Nat) : List Byte → List (Nat × Byte)
  | [] => []
  | b :: bs => (a, b) :: cellsOfBytes (a + 1) bs

/-- The folios that the cells lie in become not blank (R19). -/
def useFolios (u : SMap Bool) : List (Nat × Byte) → SMap Bool
  | [] => u
  | (a, _) :: t => if mget u false (a / 16384) then useFolios u t else useFolios (mput u (a / 16384) true) t

/-- Writes bytes and part poison into a level (R19, R70): blankness ends, marks stay. -/
def Store.write (x : Store) (cells : List (Nat × Byte)) (pois : List (Nat × Bool)) : Store :=
  { x with bytes := Memory.writeAll x.bytes cells
           used := useFolios x.used cells
           poison := pois.foldl (fun m p => mput m p.1 p.2) x.poison }

/-- The shelf mark of the folio at an address (R70). -/
def Store.mark (x : Store) (a : Nat) : BitVec 32 := mget x.marks 0xFFFFFFFF#32 (a / 16384)
/-- The blank flag of the folio at an address (R70). -/
def Store.blank (x : Store) (a : Nat) : Bool := !mget x.used false (a / 16384)

/-- The bytes of a range set to zero. -/
def Store.zeroRange (x : Store) (a n : Nat) : Store :=
  { x with bytes := x.bytes.filter fun c => decide (c.1 < a ∨ a + n ≤ c.1)
           poison := x.poison.filter fun p => decide (p.1 < a / 16 ∨ (a + n) / 16 ≤ p.1) }

/-- The folio at an address becomes blank (R70, R82). -/
def Store.makeBlank (x : Store) (a : Nat) : Store :=
  let y := Store.zeroRange x (a / 16384 * 16384) 16384
  { y with marks := mdel y.marks (a / 16384), used := mdel y.used (a / 16384) }

/-- The level of a place: 1 the carrel of a core, 2 the gallery, any other the stacks. -/
def Mem.level (m : Mem) (lvl core : Nat) : Store :=
  match lvl with
  | 1 => mget m.carrels Store.zero core
  | 2 => m.gallery
  | _ => m.hbm

/-- Replaces a level. -/
def Mem.setLevel (m : Mem) (lvl core : Nat) (x : Store) : Mem :=
  match lvl with
  | 1 => { m with carrels := mput m.carrels core x }
  | 2 => { m with gallery := x }
  | _ => { m with hbm := x }

/-- Whether every memory of the package has its canonical form. -/
def Mem.wf (m : Mem) : Bool :=
  Memory.wf m.gallery.bytes && Memory.wf m.hbm.bytes && Memory.wf m.sram && m.carrels.all fun e => Memory.wf e.2.bytes

/-! ### Cores, contexts, time -/

/-- Core `c`. -/
def State.core (s : State) (c : Nat) : Core := mget s.cores Core.zero c
/-- Replaces core `c`. -/
def State.setCore (s : State) (c : Nat) (x : Core) : State := { s with cores := mput s.cores c x }
/-- Context `k` of a core. -/
def Core.ctx (x : Core) (k : Nat) : Ctx := mget x.ctxs Ctx.zero k
/-- Replaces context `k` of a core. -/
def Core.setCtx (x : Core) (k : Nat) (y : Ctx) : Core := { x with ctxs := mput x.ctxs k y }
/-- Context `k` of core `c`. -/
def State.ctx (s : State) (c k : Nat) : Ctx := (s.core c).ctx k
/-- Replaces context `k` of core `c`. -/
def State.setCtx (s : State) (c k : Nat) (y : Ctx) : State := s.setCore c ((s.core c).setCtx k y)
/-- Replaces the registers of a context. -/
def State.setRegs (s : State) (c k : Nat) (r : Regs) : State := s.setCtx c k { s.ctx c k with regs := r }

/-- The context that the step at hand issues for. -/
def State.actor (s : State) : Nat × Nat :=
  match s.turn with
  | .ctx c k => (c, k)
  | _ => (0, 0)

/-- The control core that the step at hand executes on. -/
def State.ccActor (s : State) : Nat :=
  match s.turn with
  | .cc n => n
  | _ => 0

/-- The group count as a number. -/
def State.now (s : State) : Nat := s.count.toNat

/-- A timed context runs on the clock, not the count, while it reruns a region or catches up (R217, R218). -/
def Ctx.onClock (x : Ctx) : Bool := x.region.stage != 0 || x.lag != 0

/-- A launch by its identifier. -/
def launchZero : Launch :=
  { descriptor := List.replicate 64 0, kernel := 0, image := 0, queue := 0, timed := false, strict := false, ctxMask := 0, energy := 0,
    seed := 0, tasks := 0,
    kick := 0xFFFF, budget := 0, colophon := 0, placement := [], eligible := 0, params := [], preds := [], ports := [], far := [],
    slots := [], state := 0, enqueued := false, ended := 0, completed := 0, faulted := 0, faults := 0, skew := 0, ovr := 0,
    defer := false, conflict := false, preempted := false, coreLost := false, cancelled := false, t0 := 0, endCycle := 0,
    digest := 0, phase := 0, lastScope := 0, boundary := none, holdCycles := 0, qseq := 0, written := [], started := [], waves := [],
    supervisor := 0, conflicts := [], gone := [], ptraps := [] }

/-- The launch with an identifier (R246). -/
def State.launch (s : State) (l : BitVec 64) : Launch := mget s.ctl.launches launchZero l.toNat
/-- Replaces a launch. -/
def State.setLaunch (s : State) (l : BitVec 64) (x : Launch) : State :=
  { s with ctl := { s.ctl with launches := mput s.ctl.launches l.toNat x } }

/-- The job of a launch identifier (R246). -/
def jobOf (l : BitVec 64) : BitVec 16 := l.extractLsb' 48 16

/-- The launch of a context's task; 0 with none. -/
def Ctx.launch (x : Ctx) : BitVec 64 := match x.task with | some t => t.launch | none => 0
/-- Whether the context runs a timed task. -/
def Ctx.timed (x : Ctx) : Bool := match x.task with | some t => t.timed | none => false
/-- The identifier of the context's task. -/
def Ctx.taskId (x : Ctx) : BitVec 20 := match x.task with | some t => t.id | none => 0

/-- The number of an engine: stacks 0 to 7, the route engine 8 (R223). -/
def State.engine (s : State) (e : Nat) : Engine := mget s.engines Engine.zero e
/-- Port `p` of the hub (R202). -/
def State.port (s : State) (p : Nat) : Port := mget s.ports Port.zero p
/-- Control core `n`. -/
def State.cc (s : State) (n : Nat) : CC := mget s.ctl.ccs CC.zero n
/-- Replaces control core `n`. -/
def State.setCC (s : State) (n : Nat) (x : CC) : State := { s with ctl := { s.ctl with ccs := mput s.ctl.ccs n x } }

/-! ### Launches and their kernels -/

/-- A kernel without anything. -/
def kernelZero : Kernel :=
  { name := [], control := false, base := 0, code := [], ctl := [], ctlBase := 0, ctlMask := 0, ctxs := [], startIdx := 0xFFFF
    takeIdx := 0xFFFF, params := [], recipes := [], data := [], marks := [], slots := [] }

/-- The kernel of a launch (R248). -/
def State.kernelOf (s : State) (x : Launch) : Kernel :=
  match s.out.images[x.image]? with
  | some i => (i.kernels[x.kernel]?).getD kernelZero
  | none => kernelZero

/-- The index of a bundle in the kernel of a context's launch, as bundle tags and Callote count it (R10, R17). -/
def State.bundleIdx (s : State) (y : Ctx) (pc : BitVec 13) : Nat := (pc - BitVec.ofNat 13 (s.kernelOf (s.launch y.launch)).base).toNat

/-- The .ctx directive that task `t` of a launch runs (R164, R249, R250). -/
def Kernel.ctxOf (k : Kernel) (t : Nat) : KCtx := (k.ctxs[t % k.ctxs.length]?).getD ⟨0, false, 0, 0, 0⟩

/-- Whether a launch has a timed context: one of its tasks runs a timed .ctx directive in a timed launch (R175, R249). -/
def State.hasTimed (s : State) (l : BitVec 64) : Bool :=
  let x := s.launch l
  let k := s.kernelOf x
  x.timed && (List.range (min k.ctxs.length x.tasks)).any fun t => (k.ctxOf t).timed

/-- Draws a free number (log 2). -/
def State.draw (s : State) : Nat × State := (Config.freeNat s.free, { s with free := s.free + 1 })

/-- A saturating add of one. -/
def satInc {n : Nat} (x : BitVec n) : BitVec n := if x = BitVec.allOnes n then x else x + 1

/-! ### Registers and rotation (R38) -/

/-- The physical register of an architectural S or V name under rotation base `b`. -/
def physSV (b : BitVec 5) (n : Nat) : Nat := if n < 32 then n else 32 + (n - 32 + b.toNat) % 32
/-- The physical register of an architectural Q name. -/
def physQ (b : BitVec 5) (n : Nat) : Nat := if n < 8 then n else 8 + (n - 8 + b.toNat) % 8

/-- The code under which a context's `regBad` holds that the value of the Q or M register of code `n` is poisoned (R282). -/
def poisonCode (n : Nat) : Nat := 0x1000 + n

/-- What a context holds of errors and poison once the registers, latches or ports of some codes have been written (R282). -/
def mended (bad codes : List Nat) : List Nat := bad.filter fun n => !(codes.any fun m => m == n || poisonCode m == n)

/-- A write of the register, latch or port of code `n` ends its error, and the poison of its value (R282). -/
def Ctx.mend (y : Ctx) (n : Nat) : Ctx := { y with regBad := mended y.regBad [n] }

/-- S register `n`; S0 reads zero (R38). -/
def Regs.rdS (r : Regs) (n : Nat) : SVal := if n = 0 then SVal.zero else mget r.s SVal.zero (physSV r.base n)
/-- Writes S register `n`; a write to S0 is discarded; the tag is dropped (R27). -/
def Regs.wrS (r : Regs) (n : Nat) (v : SVal) : Regs :=
  if n = 0 then r else { r with s := mput r.s (physSV r.base n) ⟨v.val, 0, v.poison⟩ }
/-- V register `n`. -/
def Regs.rdV (r : Regs) (n : Nat) : VVal := mget r.v VVal.zero (physSV r.base n)
/-- Writes V register `n`: all lanes and the tag (R120). -/
def Regs.wrV (r : Regs) (n : Nat) (v : VVal) : Regs := { r with v := mput r.v (physSV r.base n) v }
/-- Q register `n`; Q0 reads true (R38). -/
def Regs.rdQ (r : Regs) (n : Nat) : Bool := n == 0 || r.q.getLsbD (physQ r.base n)
/-- A bit vector with bit `i` set to `v`. -/
def setBit {w : Nat} (x : BitVec w) (i : Nat) (v : Bool) : BitVec w :=
  if v then x ||| BitVec.twoPow w i else x &&& ~~~(BitVec.twoPow w i)
/-- Writes Q register `n`; a write to Q0 is discarded (R27). -/
def Regs.wrQ (r : Regs) (n : Nat) (v : Bool) : Regs :=
  if n = 0 then r else { r with q := setBit r.q (physQ r.base n) v }
/-- M register `n`. -/
def Regs.rdM (r : Regs) (n : Nat) : Mask := mget r.m 0 n
/-- The top of the mask stack (R123). -/
def Regs.top (r : Regs) : Mask := match r.masks.getLast? with | some m => m | none => allLanes

/-- A scalar port, a vector port, a latch; keys are 8 * unit + number (R28, R30). -/
def Regs.rdSP (r : Regs) (f p : Nat) : SVal := mget r.sport SVal.zero (8 * f + p)
def Regs.rdVP (r : Regs) (f p : Nat) : VVal := mget r.vport VVal.zero (8 * f + p)
def Regs.rdSL (r : Regs) (f l : Nat) : SVal := mget r.slatch SVal.zero (8 * f + l)
def Regs.rdVL (r : Regs) (f l : Nat) : VVal := mget r.vlatch VVal.zero (8 * f + l)
def Regs.wrSP (r : Regs) (f p : Nat) (v : SVal) : Regs := { r with sport := mput r.sport (8 * f + p) v }
def Regs.wrVP (r : Regs) (f p : Nat) (v : VVal) : Regs := { r with vport := mput r.vport (8 * f + p) v }

/-- A value lands in latch `l` of unit `f` (R30). -/
def Regs.land (r : Regs) (f l : Nat) : LVal → Regs
  | .s v => { r with slatch := mput r.slatch (8 * f + l) v }
  | .v v => { r with vlatch := mput r.vlatch (8 * f + l) v }

/-- Loop level `k` (R56). -/
def Regs.loop (r : Regs) (k : Nat) : Loop := mget r.loops Loop.zero k
/-- Replaces loop level `k`. -/
def Regs.setLoop (r : Regs) (k : Nat) (l : Loop) : Regs := { r with loops := mput r.loops k l }

/-- The loop control word (R56). -/
def Regs.loopWord (r : Regs) : BitVec 64 := BitVec.ofNat 64 (r.floor.toNat * 256 + r.depth.toNat * 32 + r.base.toNat)
/-- The two words of a loop level, bits 63:0 first (R56, R271). -/
def Loop.words (l : Loop) : BitVec 64 × BitVec 64 :=
  (l.iter ++ (BitVec.ofBool l.act ++ BitVec.ofBool l.rot ++ l.stm1 ++ 0#1 ++ l.start ++ l.stop), l.remain)
/-- The loop level of two words. -/
def Loop.ofWords (lo hi : BitVec 64) : Loop :=
  { remain := hi, iter := lo.extractLsb' 32 32, act := lo.getLsbD 31, rot := lo.getLsbD 30, stm1 := lo.extractLsb' 27 3,
    start := lo.extractLsb' 13 13, stop := lo.extractLsb' 0 13 }

/-! ### Places in the levels (R65 to R69) -/

/-- The level that a virtual address lies in (R65): 1 carrel, 2 gallery, 3 stacks. -/
def lvlOf (va : Nat) : Option Nat :=
  if va < 0x200000 then some 1
  else if 0x100000000 ≤ va ∧ va < 0x2C0000000 then some 2
  else if 0x10000000000 ≤ va ∧ va < 0x18000000000 then some 3
  else none

/-- The first address of a level. -/
def lvlBase (lvl : Nat) : Nat := match lvl with | 2 => 0x100000000 | 3 => 0x10000000000 | _ => 0
/-- The address after the last of a level. -/
def lvlEnd (lvl : Nat) : Nat := match lvl with | 2 => 0x2C0000000 | 3 => 0x18000000000 | _ => 0x200000

/-- The 2 MiB page of a virtual address, numbered from address 0. -/
def pageOf (va : Nat) : Nat := va / 0x200000

/-- The gallery frame, or bank, of a physical address (R67). -/
def frameOf (pa : Nat) : Nat := (pa - 0x100000000) / 0x200000
/-- The slice of a gallery address (R67, log 4). -/
def State.slice (s : State) (pa : Nat) : Nat := mget s.sliceMap (frameOf pa / 56) (frameOf pa)
/-- A row of a core's latency table (R68, log 3). -/
def Core.row (x : Core) (sl : Nat) : LatRow := mget x.lat ⟨44, 40, 112⟩ sl
/-- The largest Lg and Fx of a core's table. -/
def Core.lgMax (x : Core) : Nat := (List.range 64).foldl (fun m i => max m (x.row i).lg) 0
def Core.fxMax (x : Core) : Nat := (List.range 64).foldl (fun m i => max m (x.row i).fx) 0

/-- The stacks latency: the stated figure, raised to 64 + H for a timed context of a wide group (R210). -/
def State.stackLat (s : State) (timed : Bool) (n : Nat) : Nat :=
  if timed && decide (s.gs.hLat > 836) then max n (64 + s.gs.hLat) else n

/-- What translation answers (R290, R291): a place, a fault's reason, or a miss to be walked. -/
inductive Xl where
  | ok (pa : Nat) (rd wr : Bool)
  | fault (reason : Nat)
  | miss
  deriving DecidableEq, Repr

/-- The entry of a core's translation cache for a page of a job. -/
def Core.tlbFind (x : Core) (job : BitVec 16) (page : Nat) (pinned : Bool) : Option Tlb :=
  x.tlb.find? fun e => e.job == job && e.page == page && (!pinned || e.pinned.isSome)

/-- Translates one address of a level for a context (R65, R67, R290). -/
def Core.translate (x : Core) (y : Ctx) (lvl va : Nat) : Xl :=
  if lvl = 1 then .ok va true true
  else
    match x.tlbFind (jobOf y.launch) (pageOf va) y.timed with
    | some e => .ok (e.frame * 0x200000 + va % 0x200000) e.rd e.wr
    | none => if y.timed then .fault 3 else .miss

/-- Whether an entry maps its page: present, with its must-be-zero bits zero (R291). -/
def pteOk (e : BitVec 64) : Bool := e.getLsbD 63 && e.extractLsb' 48 12 == 0 && e.extractLsb' 0 21 == 0

/-! ### Views: what an agent reads (R78, R89, R159, R178) -/

/-- The places that an exchange, vac or setm names, with their size (R18, R77, R82). -/
def Ev.places : Ev → List (Loc × Nat)
  | .xch leaf a b => [(a, if leaf then 256 else 16384), (b, if leaf then 256 else 16384)]
  | .vac a => [(a, 16384)]
  | .setm a _ => [(a, 16384)]
  | _ => []

/-- Whether two ranges of one level overlap. -/
def locHits (l : Loc) (n lvl core a len : Nat) : Bool :=
  l.lvl == lvl && (lvl != 1 || l.core == core) && decide (l.pa < a + len ∧ a < l.pa + n)

/-- Whether an operation in flight is a context's own, those of its earlier tasks among them, which `orphan` has moved to context
4 + `k`. -/
def Pending.own (p : Pending) (c k : Nat) : Bool := p.core == c && p.ctx % 4 == k % 4

/-- Whether an event is an exchange. -/
def Ev.isXch : Ev → Bool
  | .xch .. => true
  | _ => false

/-- Whether a part of an exchange in flight has been swapped: at a free moment of its latency (R78, log 9). -/
def State.swapped (s : State) (p : Pending) (part : Nat) : Bool :=
  decide (p.due ≤ (if p.onClock then s.clock else s.now) + Config.swapTime p.seq part % 1025)

/-- Where the contents that an agent finds at a place lie: the partner of a part that an exchange of another context has
swapped, else the place itself (R78). -/
def State.resolve (s : State) (c k lvl core pa : Nat) : Nat × Nat × Nat :=
  let hit := s.agenda.find? fun p =>
    !p.own c k && p.ev.isXch && p.ev.places.any fun q => locHits q.1 q.2 lvl core pa 1
  match hit with
  | some p =>
    match p.ev with
    | .xch leaf a b =>
      let n := if leaf then 256 else 16384
      if locHits a n lvl core pa 1 then
        (if s.swapped p ((pa - a.pa) / 16) then (b.lvl, b.core, b.pa + (pa - a.pa)) else (lvl, core, pa))
      else (if s.swapped p ((pa - b.pa) / 16) then (a.lvl, a.core, a.pa + (pa - b.pa)) else (lvl, core, pa))
    | _ => (lvl, core, pa)
  | none => (lvl, core, pa)

/-- The last byte that a list of cells gives an address. -/
def cellsAt (cells : List (Nat × Byte)) (a : Nat) (b : Byte) : Byte :=
  cells.foldl (fun acc c => if c.1 = a then c.2 else acc) b

/-- A 64-bit little-endian word of bytes from a reader. -/
def wordAt (f : Nat → Byte) (a : Nat) : Nat → Nat
  | 0 => 0
  | n + 1 => (f a).toNat + 256 * wordAt f (a + 1) n

/-- The byte of a level that a context finds at a place, with its own stores that have not landed (R89). -/
def ownByte (ps : List Pending) (lvl : Nat) (base : Nat → Byte) (a : Nat) : Byte :=
  match ps with
  | [] => base a
  | p :: rest =>
    -- the list runs from the newest operation to the oldest
    match p.ev with
    | .write cells _ _ =>
      if p.lvl = lvl then cellsAt cells a (ownByte rest lvl base a) else ownByte rest lvl base a
    | .cas w b t =>
      if lvl = 1 ∧ w ≤ a ∧ a < w + 8 then
        if BitVec.ofNat 64 (wordAt (ownByte rest lvl base) w 8) = b then BitVec.ofNat 8 (t.toNat >>> (8 * (a - w)))
        else ownByte rest lvl base a
      else ownByte rest lvl base a
    | _ => ownByte rest lvl base a

/-- The operations in flight of a context, the newest first. -/
def State.flight (s : State) (c k : Nat) : List Pending := (s.agenda.filter fun p => p.own c k).reverse

/-- A gallery bank (R83). -/
def State.bank (s : State) (b : Nat) : Bank := mget s.banks ⟨0, 0, []⟩ b

/-- The byte that a level holds at a place, with the writes that a waking bank has queued (R210). -/
def State.levelByte (s : State) (lvl core a : Nat) : Byte :=
  let b := Memory.read (s.mem.level lvl core).bytes a
  if lvl = 2 then (s.bank (frameOf a)).queue.foldl (fun acc q => cellsAt q.1 a acc) b else b

/-- The physical address of a page's entry in its job's tables (R291); none while the job has no table. -/
def State.pteAt (s : State) (job : BitVec 16) (page : Nat) : Option Nat :=
  let far := decide (pageOf (lvlBase 3) ≤ page)
  match mget s.tables 0 (2 * job.toNat + (if far then 1 else 0)) with
  | 0 => none
  | a => some (a + 8 * (page - pageOf (lvlBase (if far then 3 else 2))))
/-- A page table entry (R291); all zeros without a table. -/
def State.pte (s : State) (job : BitVec 16) (page : Nat) : BitVec 64 :=
  match s.pteAt job page with
  | some a => BitVec.ofNat 64 (wordAt (s.levelByte 2 0) a 8)
  | none => 0

/-- The poison of a part of a level, queued writes included. -/
def State.levelPoison (s : State) (lvl core part : Nat) : Bool :=
  let b := mget (s.mem.level lvl core).poison false part
  if lvl = 2 then
    (s.bank (frameOf (part * 16))).queue.foldl (fun acc q => q.2.foldl (fun acc p => if p.1 = part then p.2 else acc) acc) b
  else b

/-- The banks once cells have been written to the gallery: a gated one is awake, since a write is an access (R83). -/
def wokenBanks (banks : SMap Bank) (clock : Nat) (cells : List (Nat × Byte)) : SMap Bank :=
  cells.foldl (fun b c => if (mget b ⟨0, 0, []⟩ (frameOf c.1)).state = 1 then mput b (frameOf c.1) ⟨0, clock, []⟩ else b) banks

/-- The writes that reach waking banks are queued, each at its bank (R210). -/
def queueWrites (banks : SMap Bank) (cells : List (Nat × Byte)) (pois : List (Nat × Bool)) : SMap Bank :=
  ((cells.map fun (c : Nat × Byte) => frameOf c.1) ++ (pois.map fun (p : Nat × Bool) => frameOf (p.1 * 16))).dedup.foldl (fun b f =>
    let x := mget b ⟨0, 0, []⟩ f
    mput b f { x with queue := x.queue ++
      [(cells.filter fun c => frameOf c.1 == f, pois.filter fun p => frameOf (p.1 * 16) == f)] }) banks

/-- Writes bytes and part poison to a level; the writes to a gallery bank that is waking are queued (R210). -/
def State.putCells (s : State) (lvl core : Nat) (cells : List (Nat × Byte)) (pois : List (Nat × Bool)) : State :=
  let waking := fun a => lvl == 2 && (s.bank (frameOf a)).state == 2
  let x := Store.write (s.mem.level lvl core) (cells.filter fun c => !waking c.1) (pois.filter fun p => !waking (p.1 * 16))
  { s with mem := s.mem.setLevel lvl core x
           banks := queueWrites (if lvl = 2 then wokenBanks s.banks s.clock cells else s.banks)
             (cells.filter fun c => waking c.1) (pois.filter fun p => waking (p.1 * 16)) }

/-- The writes that a bank has queued for a range are dropped: something later has replaced their bytes (R210). -/
def State.dropQueued (s : State) (lvl pa n : Nat) : State :=
  let x := s.bank (frameOf pa)
  if lvl ≠ 2 ∨ x.queue.isEmpty then s
  else
    { s with banks := mput s.banks (frameOf pa) { x with queue := x.queue.map fun q =>
        (q.1.filter fun c => decide (c.1 < pa ∨ pa + n ≤ c.1), q.2.filter fun p => decide (16 * p.1 < pa ∨ pa + n ≤ 16 * p.1)) } }

/-- Whether the folio of a place is blank, as an agent finds it: no write has been queued for it either (R70, R210). -/
def State.blankAt (s : State) (l : Loc) : Bool :=
  (s.mem.level l.lvl l.core).blank l.pa &&
    !(l.lvl == 2 && (s.bank (frameOf l.pa)).queue.any fun q => q.1.any fun c => c.1 / 16384 == l.pa / 16384)

/-- Writes a range that lies in one bank at once; what a waking bank has queued for it is replaced (R210). -/
def State.putRange (s : State) (lvl core pa : Nat) (bytes : List Byte) (pois : List Bool) : State :=
  let s := s.dropQueued lvl pa bytes.length
  let cells := cellsOfBytes pa bytes
  let x := Store.write (s.mem.level lvl core) cells (pois.zipIdx.map fun p => (pa / 16 + p.2, p.1))
  { s with mem := s.mem.setLevel lvl core x, banks := if lvl = 2 then wokenBanks s.banks s.clock cells else s.banks }

/-- A context's write to a level (R78): a part that an exchange of another context has swapped already is written where its contents
now lie. -/
def State.writeAs (s : State) (c k lvl core : Nat) (cells : List (Nat × Byte)) (pois : List (Nat × Bool)) : State :=
  if s.agenda.any fun p => p.ev.isXch && !p.own c k then
    let s := cells.foldl (fun s b => let q := s.resolve c k lvl core b.1; s.putCells q.1 q.2.1 [(q.2.2, b.2)] []) s
    pois.foldl (fun s b => let q := s.resolve c k lvl core (16 * b.1); s.putCells q.1 q.2.1 [] [(q.2.2 / 16, b.2)]) s
  else s.putCells lvl core cells pois

/-- The byte a context reads at a place (R78, R89, R178): its own entries of the phase buffer, then its stores in flight,
then the level. -/
def State.viewByte (s : State) (c k lvl pa : Nat) : Byte :=
  let y := s.ctx c k
  let (l', c', a') := s.resolve c k lvl c pa
  let base := ownByte (s.flight c k) lvl (fun a => s.levelByte l' c' (a - pa + a')) pa
  if lvl = 2 then
    (y.closed ++ y.pbuf).foldl (fun acc e =>
      if e.task == y.taskId && e.pa / 16 == pa / 16 && e.mask.getLsbD (pa % 16)
      then BitVec.ofNat 8 (e.data.toNat >>> (8 * (pa % 16))) else acc) base
  else base

/-- Whether the part that a context reads at a place is poisoned (R70). -/
def State.viewPoison (s : State) (c k lvl pa : Nat) : Bool :=
  let y := s.ctx c k
  let part := pa / 16
  let (l', c', a') := s.resolve c k lvl c pa
  let own := (s.flight c k).reverse.foldl (fun acc p =>
    match p.ev with
    | .write _ pois _ => if p.lvl = lvl then pois.foldl (fun acc q => if q.1 = part then q.2 else acc) acc else acc
    | _ => acc) (s.levelPoison l' c' (a' / 16))
  if lvl = 2 then
    (y.closed ++ y.pbuf).foldl (fun acc e =>
      if e.task == y.taskId && e.pa / 16 == part then (if e.mask == 0xFFFF#16 then e.poison else acc || e.poison) else acc) own
  else own

/-- A little-endian number of `n` bytes that a context reads. -/
def State.viewN (s : State) (c k lvl pa : Nat) : Nat → Nat
  | 0 => 0
  | n + 1 => (s.viewByte c k lvl pa).toNat + 256 * s.viewN c k lvl (pa + 1) n

/-! ### Operations in flight -/

/-- A context's operations land by the clock when it is free, since a group hold does not stop it (R211), or runs on the clock. -/
def Ctx.byClock (x : Ctx) : Bool := x.onClock || !x.timed
/-- The clock, or the count. -/
def State.time (s : State) (onClock : Bool) : Nat := if onClock then s.clock else s.now

/-- Adds an operation in flight of a context: `lat` cycles from now, `extra` cycles late (R30, R69, R174). -/
def State.pend (s : State) (c k lvl : Nat) (wr : Bool) (lat extra : Nat) (ev : Ev) : State :=
  let oc := (s.ctx c k).byClock
  let t := s.time oc + lat
  { s with agenda := s.agenda ++ [⟨t + extra, oc, c, k, lvl, wr, t, s.free, (s.ctx c k).timed, ev⟩], free := s.free + 1 }

/-- Adds an event of the package, by group count or by clock. -/
def State.post (s : State) (due : Nat) (onClock : Bool) (c k : Nat) (ev : Ev) : State :=
  { s with agenda := s.agenda ++ [⟨due, onClock, c, k, 0, false, due, s.free, false, ev⟩], free := s.free + 1 }

/-- A command that a context sends by clock: scheduled if the context is timed (R170). -/
def State.sends (s : State) (due c k : Nat) (ev : Ev) : State :=
  { s with agenda := s.agenda ++ [⟨due, true, c, k, 0, false, due, s.free, (s.ctx c k).timed, ev⟩], free := s.free + 1 }

/-- A result that lands in a latch of the context (R30). -/
def State.lands (s : State) (c k f lat : Nat) (z y : Option LVal) (fl : BitVec 5) : State :=
  s.pend c k 0 false lat 0 (.land f z y fl)

/-- A raw scalar result (R39). -/
def raw (x : BitVec 64) : LVal := .s ⟨x, 0, false⟩

/-! ### What leaves the package (R301, R302) -/

/-- The group count and the time of day at the same instant (R302). -/
def State.stamp (s : State) : BitVec 64 × BitVec 80 := (s.count, Config.timeOfDay s.out.time (s.clock - s.out.timeAt))

/-- What leaves on the management port or Callote's console, stamped as it leaves (R302); nothing leaves while the port is down for CC3's
reboot (R309). -/
def State.send (s : State) (o : Output) : State :=
  if s.clock < s.out.downTill then s else { s with out := { s.out with out := s.out.out ++ [{ o with stamp := s.stamp }] } }

/-- A line of a log or of Callote's console. -/
def State.say (s : State) (kind : Nat) (bytes : List Byte) (words : List (BitVec 64)) : State :=
  s.send ⟨kind, 0, 0, bytes, words, 0, (0, 0)⟩

/-- The kind of a line of `watch hold` (R194). -/
def sayHold : Nat := 0x111

/-- What `watch hold` prints (R194). -/
def State.sayWatch (s : State) (words : List (BitVec 64)) : State :=
  if s.out.watches.contains .hold then s.say sayHold [] words else s

/-! ### Group holds (R209, R210) -/

/-- The package requests a hold at this count and clock; its end notice may be known at the request. -/
def State.requestHold (s : State) (cause : BitVec 3) (d : Option Nat) : State :=
  let h : Hold := { cause, clock := s.clock, count := s.now,
                    doneAt := d.map fun d => s.clock + s.gs.hLat + d, peer := 0, stop := cause == 4 }
  { s with gs := { s.gs with holds := s.gs.holds ++ [h],
                             causes := (if s.gs.holds.isEmpty then 0 else s.gs.causes) ||| BitVec.twoPow 8 cause.toNat } }

/-- The first open request of a cause, peer and clock of request (any, with none) is over at its clock + H + D; `d` gives D from
the clock of the request (R209). -/
def endRequest (cause : BitVec 3) (peer : Nat) (at_ : Option Nat) (hLat : Nat) (d : Nat → Nat) : List Hold → List Hold
  | [] => []
  | h :: t =>
    if h.cause == cause && h.doneAt.isNone && h.peer == peer && (at_ == none || at_ == some h.clock) then
      { h with doneAt := some (h.clock + hLat + d h.clock) } :: t
    else h :: endRequest cause peer at_ hLat d t

/-- The package ends its open request of a cause, made at clock `at_` when it is given, with a notice that names `d`. -/
def State.noticeHold (s : State) (cause : BitVec 3) (at_ : Option Nat) (d : Nat) : State :=
  { s with gs := { s.gs with holds := endRequest cause 0 at_ s.gs.hLat (fun _ => d) s.gs.holds } }

/-- The package ends its open request of a cause now: D is the time since the request. -/
def State.noticeNow (s : State) (cause : BitVec 3) : State :=
  { s with gs := { s.gs with holds := endRequest cause 0 none s.gs.hLat (fun r => s.clock - r) s.gs.holds } }

/-! ### Traps (R271 to R277) -/

/-- A trap: its class (R272), detail words, software code, offending slots, the lv unit whose burst raises it, and the number of
records that the burst makes before it (R87). -/
structure Trap where
  cls : Nat
  w1 : BitVec 64
  w2 : BitVec 64
  code : BitVec 16
  slots : BitVec 11
  burst : Option Nat
  made : Nat
  deriving DecidableEq, Repr

/-- A trap with two detail words. -/
def trapOf (cls : Nat) (w1 w2 : BitVec 64) : Trap := ⟨cls, w1, w2, 0, 0, none, 0⟩
/-- illegal bundle, with its mask (R32). -/
def trapIllegal (m : BitVec 11) : Trap := ⟨0x01, 0, 0, 0, m, none, 0⟩
/-- translation and protection, with its reason (R290). -/
def trapXlat (a : BitVec 64) (reason : Nat) : Trap := trapOf 0x09 a (BitVec.ofNat 64 reason)
/-- format-tag mismatch: the tag found and the operand (R272). -/
def trapTag (tag : Tag) (operand : Nat) : Trap := trapOf 0x03 0 (BitVec.ofNat 64 (tag.toNat + 256 * operand))
/-- region violation (R214). -/
def trapRegion : Trap := trapOf 0x16 0 0
/-- codex-bound: row slot or count, and pipe (R272). -/
def trapCodex (n : BitVec 64) (pipe : Nat) : Trap := trapOf 0x12 n (BitVec.ofNat 64 pipe)
/-- claim conflict: address and claiming core. -/
def trapClaim (a : BitVec 64) (core : Nat) : Trap := trapOf 0x0A a (BitVec.ofNat 64 core)
/-- engine parameter error: block, code and field offset. -/
def trapParam (block : BitVec 64) (code off : Nat) : Trap := trapOf 0x15 block (BitVec.ofNat 64 (code + 256 * off))

/-- Whether a trap always goes to the supervisor (R272). -/
def Trap.supervisor (t : Trap) : Bool :=
  t.cls == 0x10 || t.cls == 0x13 || t.cls == 0x17 || t.cls == 0x18 || t.cls == 0x19 || (t.cls == 0x09 && t.w2 == 4)

/-- Word 0 of the record (R271). -/
def Trap.word0 (t : Trap) (nested : Bool) (at_ resume : BitVec 13) : BitVec 64 :=
  t.code ++ t.slots ++ BitVec.ofBool nested ++ 0#4 ++ BitVec.ofNat 6 t.cls ++ resume ++ at_

/-- The record at a trap (R271, R276): a nested trap keeps words 3 to 12. -/
def trapRecord (y : Ctx) (t : Trap) (at_ resume : BitVec 13) (count : BitVec 64) : Record :=
  let r := y.regs
  let nested := y.record.valid
  let saved : SMap (BitVec 64) :=
    if nested then y.record.words
    else
      (List.range 4).foldl (fun m k =>
        mput (mput m (4 + 2 * k) (r.loop k).words.1) (5 + 2 * k) (r.loop k).words.2)
        (mput (mput y.record.words 3 r.loopWord) 12
          (BitVec.ofNat 64 (r.spill.prog.toNat +
            (if (match t.burst with | some f => f == 7 | none => y.prog.getLsbD 7) then 128 else 0))))
  ⟨true, mput (mput (mput (mput saved 0 (t.word0 nested at_ resume)) 1 t.w1) 2 t.w2) 13 count⟩

/-- An open region is abandoned (R220): the undo log and the snapshot are discarded. -/
def Ctx.abandon (y : Ctx) : Ctx := { y with region := Region.zero }

/-- A trap that is delivered counts in the colophon, except a software trap and a merge conflict, which the boundary counted
(R179, R259). -/
def countFault (s : State) (y : Ctx) (cls : Nat) : State :=
  match y.task with
  | some t =>
    if cls = 0x02 ∨ cls = 0x0D then s
    else s.setLaunch t.launch { s.launch t.launch with faults := min 0xFFFFFFFF ((s.launch t.launch).faults + 1) }
  | none => s

/-- The wait that a context is in. -/
def Status.wait : Status → Option Wait
  | .waiting w => some w
  | _ => none

/-- The status of a context that goes on where a trap has left it: at the wait that the trap interrupted, or at its bundle (R64, R275). -/
def Ctx.afterHeld (y : Ctx) : Status := match y.held with | some w => .waiting w | none => .ready

/-- The context after a trap at bundle `at_` that resumes at `resume` (R274, R276). A wait that its bundle did not wait for (R18) is held
until the return (log 54). -/
def trapCtx (y : Ctx) (t : Trap) (at_ resume : BitVec 13) (count : BitVec 64) : Ctx :=
  let y := { y.abandon with held := y.status.wait }
  let rec' := trapRecord y t at_ resume count
  if t.supervisor || !y.trapVec.getLsbD 13 || y.record.valid then
    { y with record := rec', pc := resume, status := .stopped }
  else
    { y with record := rec', pc := y.trapVec.extractLsb' 0 13, status := .ready, prog := 0
             regs := { y.regs with floor := y.regs.depth, spill := { y.regs.spill with prog := 0 } } }

/-- TAKING A TRAP (R274, R276): the context's record and entry, whose first bundle issues in the next cycle or later; a trap for the
supervisor is written to its mailbox and queued within 64 cycles. -/
def raiseTrap (s : State) (c k : Nat) (t : Trap) (at_ resume : BitVec 13) : State :=
  let y := s.ctx c k
  let s' := countFault (s.setCtx c k { trapCtx y t at_ resume s.count with readyAt := max y.readyAt (s.clock + 1) }) y t.cls
  if (trapCtx y t at_ resume s.count).status = .stopped then
    s'.post (s.clock + Config.freeNat s.free % 65) true c k (.supervisor (s.launch y.launch).supervisor.toNat)
  else s'

/-- THE RETURN FROM A TRAP (R275): the loop levels, loop control word, rotation base and burst progress of words 3 to 12; a wait that the
trap interrupted goes on, unless the returning bundle halts or itself waits. -/
def trapRestore (y : Ctx) : Ctx :=
  let w := fun i => mget y.record.words 0 i
  let r := (List.range 4).foldl (fun r k => r.setLoop k (Loop.ofWords (w (4 + 2 * k)) (w (5 + 2 * k)))) y.regs
  { y with record := { y.record with valid := false }
           status := if y.status = .ready ∨ y.status = .stopped then y.afterHeld else y.status
           held := none
           prog := if (w 12).extractLsb' 0 7 = 0#7 then 0 else (w 12).extractLsb' 0 8
           regs := { r with floor := (w 3).extractLsb' 8 3, depth := (w 3).extractLsb' 5 3, base := (w 3).extractLsb' 0 5
                            spill := { r.spill with prog := (w 12).extractLsb' 0 7 } } }

end Sys2Proof.Machine
end

