-- ==== Sys2Proof/Machine/Crypto.lean ====
section
/-! DEFINITION. SHA-512 (FIPS 180-4) and PureEd25519 signatures, their making and their verification (RFC 8032), which R181, R260 and
R296 to R299 name (log 14). -/

namespace Sys2Proof.Machine

/-! ### SHA-512 -/

/-- The round constants. -/
def shaK : List (BitVec 64) :=
  [0x428A2F98D728AE22, 0x7137449123EF65CD, 0xB5C0FBCFEC4D3B2F, 0xE9B5DBA58189DBBC, 0x3956C25BF348B538,
   0x59F111F1B605D019, 0x923F82A4AF194F9B, 0xAB1C5ED5DA6D8118, 0xD807AA98A3030242, 0x12835B0145706FBE,
   0x243185BE4EE4B28C, 0x550C7DC3D5FFB4E2, 0x72BE5D74F27B896F, 0x80DEB1FE3B1696B1, 0x9BDC06A725C71235,
   0xC19BF174CF692694, 0xE49B69C19EF14AD2, 0xEFBE4786384F25E3, 0x0FC19DC68B8CD5B5, 0x240CA1CC77AC9C65] ++
  [0x2DE92C6F592B0275, 0x4A7484AA6EA6E483, 0x5CB0A9DCBD41FBD4, 0x76F988DA831153B5, 0x983E5152EE66DFAB,
   0xA831C66D2DB43210, 0xB00327C898FB213F, 0xBF597FC7BEEF0EE4, 0xC6E00BF33DA88FC2, 0xD5A79147930AA725,
   0x06CA6351E003826F, 0x142929670A0E6E70, 0x27B70A8546D22FFC, 0x2E1B21385C26C926, 0x4D2C6DFC5AC42AED,
   0x53380D139D95B3DF, 0x650A73548BAF63DE, 0x766A0ABB3C77B2A8, 0x81C2C92E47EDAEE6, 0x92722C851482353B] ++
  [0xA2BFE8A14CF10364, 0xA81A664BBC423001, 0xC24B8B70D0F89791, 0xC76C51A30654BE30, 0xD192E819D6EF5218,
   0xD69906245565A910, 0xF40E35855771202A, 0x106AA07032BBD1B8, 0x19A4C116B8D2D0C8, 0x1E376C085141AB53,
   0x2748774CDF8EEB99, 0x34B0BCB5E19B48A8, 0x391C0CB3C5C95A63, 0x4ED8AA4AE3418ACB, 0x5B9CCA4F7763E373,
   0x682E6FF3D6B2B8A3, 0x748F82EE5DEFB2FC, 0x78A5636F43172F60, 0x84C87814A1F0AB72, 0x8CC702081A6439EC] ++
  [0x90BEFFFA23631E28, 0xA4506CEBDE82BDE9, 0xBEF9A3F7B2C67915, 0xC67178F2E372532B, 0xCA273ECEEA26619C,
   0xD186B8C721C0C207, 0xEADA7DD6CDE0EB1E, 0xF57D4F7FEE6ED178, 0x06F067AA72176FBA, 0x0A637DC5A2C898A6,
   0x113F9804BEF90DAE, 0x1B710B35131C471B, 0x28DB77F523047D84, 0x32CAAB7B40C72493, 0x3C9EBE0A15C9BEBC,
   0x431D67C49C100D4C, 0x4CC5D4BECB3E42B6, 0x597F299CFC657E2A, 0x5FCB6FAB3AD6FAEC, 0x6C44198C4A475817]

/-- The eight working variables, or the eight words of the hash. -/
structure Sha where
  a : BitVec 64
  b : BitVec 64
  c : BitVec 64
  d : BitVec 64
  e : BitVec 64
  f : BitVec 64
  g : BitVec 64
  h : BitVec 64
  deriving DecidableEq, Repr

/-- The initial hash value. -/
def shaInit : Sha :=
  ⟨0x6A09E667F3BCC908, 0xBB67AE8584CAA73B, 0x3C6EF372FE94F82B, 0xA54FF53A5F1D36F1,
   0x510E527FADE682D1, 0x9B05688C2B3E6C1F, 0x1F83D9ABFB41BD6B, 0x5BE0CD19137E2179⟩

/-- Rotates a word right. -/
def rotr (x : BitVec 64) (n : Nat) : BitVec 64 := (x >>> n) ||| (x <<< (64 - n))

/-- One round with constant `k` and schedule word `w`. -/
def shaRound (s : Sha) (k w : BitVec 64) : Sha :=
  let t1 := s.h + (rotr s.e 14 ^^^ rotr s.e 18 ^^^ rotr s.e 41) + ((s.e &&& s.f) ^^^ (~~~s.e &&& s.g)) + k + w
  let t2 := (rotr s.a 28 ^^^ rotr s.a 34 ^^^ rotr s.a 39) + ((s.a &&& s.b) ^^^ (s.a &&& s.c) ^^^ (s.b &&& s.c))
  ⟨t1 + t2, s.a, s.b, s.c, s.d + t1, s.e, s.f, s.g⟩

/-- The rounds: `win` holds the next sixteen schedule words. -/
def shaRounds (s : Sha) (win : List (BitVec 64)) : List (BitVec 64) → Sha
  | [] => s
  | k :: ks =>
    let w := fun i => win.getD i 0
    let s0 := rotr (w 1) 1 ^^^ rotr (w 1) 8 ^^^ (w 1 >>> 7)
    let s1 := rotr (w 14) 19 ^^^ rotr (w 14) 61 ^^^ (w 14 >>> 6)
    shaRounds (shaRound s k (w 0)) (win.drop 1 ++ [w 0 + s0 + w 9 + s1]) ks

/-- The hash after a block of sixteen words. -/
def shaBlock (h : Sha) (win : List (BitVec 64)) : Sha :=
  let s := shaRounds h win shaK
  ⟨h.a + s.a, h.b + s.b, h.c + s.c, h.d + s.d, h.e + s.e, h.f + s.f, h.g + s.g, h.h + s.h⟩

/-- A big-endian word of bytes. -/
def beWord (bs : List Byte) : BitVec 64 := BitVec.ofNat 64 (bs.foldl (fun n b => 256 * n + b.toNat) 0)

/-- The bytes of a number, the highest first. -/
def beBytes (n w : Nat) : List Byte := (leBytes n w).reverse

/-- The padded message. -/
def shaPad (bs : List Byte) : List Byte :=
  bs ++ [0x80#8] ++ List.replicate ((240 - (bs.length + 1) % 128) % 128) 0 ++ beBytes 16 (8 * bs.length)

/-- The blocks of a padded message, `fuel` of them. -/
def shaBlocks (h : Sha) (bs : List Byte) : Nat → Sha
  | 0 => h
  | n + 1 => shaBlocks (shaBlock h ((List.range 16).map fun i => beWord ((bs.drop (8 * i)).take 8))) (bs.drop 128) n

/-- SHA-512 of a message: 64 bytes. -/
def sha512 (bs : List Byte) : List Byte :=
  let m := shaPad bs
  let h := shaBlocks shaInit m (m.length / 128)
  [h.a, h.b, h.c, h.d, h.e, h.f, h.g, h.h].flatMap fun w => beBytes 8 w.toNat

/-! ### Ed25519 -/

/-- The field's prime. -/
def edP : Nat := 2 ^ 255 - 19
/-- The order of the base point. -/
def edL : Nat := 2 ^ 252 + 27742317777372353535851937790883648493
/-- The curve's constant. -/
def edD : Nat := 37095705934669439343138083508754565189542113879843219016388785533085940283555

/-- A power modulo the prime, over the low `n` bits of the exponent. -/
def powP (x e : Nat) : Nat → Nat
  | 0 => 1
  | n + 1 => let y := powP (x * x % edP) (e / 2) n; if e % 2 = 1 then x * y % edP else y

/-- A point in extended coordinates. -/
structure Pt where
  x : Nat
  y : Nat
  z : Nat
  t : Nat
  deriving DecidableEq, Repr

/-- The neutral point. -/
def Pt.zero : Pt := ⟨0, 1, 1, 0⟩

/-- The sum of two points. -/
def Pt.add (p q : Pt) : Pt :=
  let a := (p.y + edP - p.x) * (q.y + edP - q.x) % edP
  let b := (p.y + p.x) * (q.y + q.x) % edP
  let c := 2 * p.t * q.t % edP * edD % edP
  let d := 2 * p.z * q.z % edP
  let e := (b + edP - a) % edP
  let f := (d + edP - c) % edP
  let g := (d + c) % edP
  let h := (b + a) % edP
  ⟨e * f % edP, g * h % edP, f * g % edP, e * h % edP⟩

/-- The multiple of a point by the low `n` bits of a scalar. -/
def Pt.mul (p : Pt) (k : Nat) : Nat → Pt
  | 0 => Pt.zero
  | n + 1 => let q := (p.add p).mul (k / 2) n; if k % 2 = 1 then p.add q else q

/-- Whether two points are equal. -/
def Pt.same (p q : Pt) : Bool := p.x * q.z % edP == q.x * p.z % edP && p.y * q.z % edP == q.y * p.z % edP

/-- The base point. -/
def edBase : Pt :=
  let x := 15112221349535400772501151409588531511454012693041857206046113283949847762202
  let y := 46316835694926478169428394003475163141307993866256225615783033603165251855960
  ⟨x, y, 1, x * y % edP⟩

/-- The point that 32 bytes encode, if any. -/
def edPoint (bs : List Byte) : Option Pt :=
  let n := leWord bs
  let y := n % 2 ^ 255
  let sign := n / 2 ^ 255
  if y ≥ edP then none
  else
    let u := (y * y + edP - 1) % edP
    let v := (edD * (y * y % edP) + 1) % edP
    let v3 := v * v % edP * v % edP
    let x := u * v3 % edP * powP (u * (v3 * v3 % edP * v % edP) % edP) ((edP - 5) / 8) 252 % edP
    let x := if v * (x * x % edP) % edP = u then x else x * powP 2 ((edP - 1) / 4) 254 % edP
    if v * (x * x % edP) % edP ≠ u then none
    else if x = 0 ∧ sign = 1 then none
    else
      let x := if x % 2 = sign then x else edP - x
      some ⟨x, y, 1, x * y % edP⟩

/-- The 32 bytes that encode a point. -/
def Pt.bytes (p : Pt) : List Byte :=
  let i := powP p.z (edP - 2) 255
  leBytes 32 (p.y * i % edP + p.x * i % edP % 2 * 2 ^ 255)

/-- The scalar of a private key: the first half of its hash, with its low three bits and bit 255 cleared and bit 254 set (RFC 8032,
5.1.5). -/
def edScalar (key : List Byte) : Nat := leWord ((sha512 key).take 32) % 2 ^ 254 / 8 * 8 + 2 ^ 254

/-- The public key of a private key of 32 bytes (RFC 8032, 5.1.5). -/
def edPublic (key : List Byte) : List Byte := (edBase.mul (edScalar key) 256).bytes

/-- The signature of a message under a private key (RFC 8032, 5.1.6). -/
def edSign (key msg : List Byte) : List Byte :=
  let r := leWord (sha512 ((sha512 key).drop 32 ++ msg)) % edL
  let R := (edBase.mul r 256).bytes
  let k := leWord (sha512 (R ++ edPublic key ++ msg)) % edL
  R ++ leBytes 32 ((r + k * edScalar key) % edL)

/-- Whether a signature of 64 bytes verifies over a message under a public key of 32 bytes (RFC 8032, 5.1.7). -/
def edVerify (key msg sig : List Byte) : Bool :=
  if key.length ≠ 32 ∨ sig.length ≠ 64 then false
  else
    let s := leWord (sig.drop 32)
    match edPoint key, edPoint (sig.take 32) with
    | some a, some r =>
      if s ≥ edL then false
      else
        let k := leWord (sha512 (sig.take 32 ++ key ++ msg)) % edL
        ((edBase.mul s 256).mul 8 4).same ((r.add (a.mul k 256)).mul 8 4)
    | _, _ => false

end Sys2Proof.Machine
end

