-- ==== Sys2Proof/Machine/Operands.lean ====
section
/-! DEFINITION. Operands: the sources of a move (R24, R25), the operands an operation consumes with their tags and poison
(R74, R121, R281, R282), the accesses of a bundle with their checks (R65 to R71, R183, R214, R290), loads, stores and the
undo log (R75, R89, R177, R184, R215). -/

namespace Sys2Proof.Machine

/-- What an operation of a bundle reads: the package and the context before the bundle, the context's registers with the
bundle's writes of step 3, the long immediate, the bundle's index and the operation's slot (R29); the bundle's spill and fill bursts
as unit, whether it fills, and m (R86), the destinations that the bundle's moves write, and the obase and olimit that its sbase sets. -/
structure Env where
  s : State
  c : Nat
  k : Nat
  y : Ctx
  r : Regs
  limm : BitVec 64
  pc : BitVec 13
  slot : Nat
  bursts : List (Nat × Bool × Nat) := []
  dsts : List (BitVec 10) := []
  sbase : Option (BitVec 64 × BitVec 32) := none

/-- The scalar value as a bus value with tag raw (R25). -/
def sv (x : BitVec 64) : SVal := ⟨x, 0, false⟩
/-- A splat of a scalar (R24, R25): tag raw, its poison in every lane. -/
def splatV (v : SVal) : VVal := ⟨splat (v.val.extractLsb' 0 32), 0, if v.poison then allLanes else 0, false, false⟩

/-- The position of a context: the group cycle its bundles stand at in the schedule (R197). -/
def State.pos (s : State) (y : Ctx) : Nat := s.now + (if s.gs.frozen && y.onClock then s.clock - s.gs.frozenAt else 0) - y.lag

/-- The cycles since the CK bundle of a context's open region (R212): of its position, or, in a rerun, of the clock. -/
def State.regionCyc (s : State) (y : Ctx) : Nat :=
  if y.region.stage = 0 then s.pos y - y.region.startPos else s.clock - y.region.rerunAt

/-- The physical code of a source register or latch, as R282 names it. -/
def Env.physical (e : Env) (src : BitVec 10) : Nat :=
  let n := src.toNat
  if n < 0x40 then physSV e.y.regs.base n
  else if n < 0x80 then 0x40 + physSV e.y.regs.base (n - 0x40)
  else if n < 0xC0 then 0x80 + physQ e.y.regs.base (n - 0x80)
  else if 0x100 ≤ n ∧ n < 0x200 then 0x100 + 8 * fuOf ((n - 0x100) / 8) + n % 8
  else n

/-- Whether the value of a Q or M register is poisoned, which an error that a read of it has raised makes it (R282). -/
def Env.tainted (e : Env) (src : BitVec 10) : Bool := e.y.regBad.contains (poisonCode (e.physical src))

/-- The source of a scalar bus (R24). -/
def Env.scalar (e : Env) (src : BitVec 10) : SVal :=
  let n := src.toNat
  let r := e.y.regs
  if n < 0x40 then r.rdS n
  else if n < 0xC0 then ⟨if r.rdQ (n - 0x80) then 1 else 0, 0, e.tainted src⟩
  else if n < 0x200 then r.rdSL (fuOf ((n - 0x100) / 8)) (n % 8)
  else if n < 0x300 then sv ((src.extractLsb' 0 8).signExtend 64)
  else
    match n - 0x300 with
    | 0 => sv e.limm
    | 1 => sv (BitVec.ofNat 64 e.k)
    | 2 => sv e.s.count
    | 3 => sv (BitVec.ofNat 64 e.c)
    | 4 => sv (e.y.taskId.zeroExtend 64)
    | 13 => sv (r.base.zeroExtend 64)
    | m =>
      let l := r.loop ((m - 5) / 2)
      if !l.act then sv 0 else if m % 2 = 1 then sv l.remain else sv (l.iter.zeroExtend 64)

/-- The source of a vector bus (R24). The lanes that an M register gives carry tag raw: R24 and R25 name none (DESIGN CHOICE, log 48). -/
def Env.vector (e : Env) (src : BitVec 10) : VVal :=
  let n := src.toNat
  let r := e.y.regs
  if 0x40 ≤ n ∧ n < 0x80 then r.rdV (n - 0x40)
  else if 0xC0 ≤ n ∧ n < 0x100 then
    ⟨ofLanes fun l => if (r.rdM (n - 0xC0)).getLsbD l then 0xFFFFFFFF#32 else 0, 0, if e.tainted src then allLanes else 0, false, false⟩
  else if n = 0x301 then ⟨ofLanes fun l => BitVec.ofNat 32 l, 1, 0, false, false⟩
  else if 0x100 ≤ n ∧ n < 0x200 ∧ latchClass ((n - 0x100) / 8) (n % 8) = some false then
    r.rdVL (fuOf ((n - 0x100) / 8)) (n % 8)
  else splatV (e.scalar src)

/-- The source of a move on the bus of a class, `true` scalar. -/
def Env.source (e : Env) (scalar : Bool) (src : BitVec 10) : LVal :=
  if scalar then .s (e.scalar src) else .v (e.vector src)

/-- The physical code of a register or latch, or, from 0x400, of an operand port, which the code 0x200 + 8 * unit + port names (no source
field names a port, DESIGN CHOICE, log 48). -/
def Env.errorCode (e : Env) (src : BitVec 10) : Nat :=
  let n := src.toNat
  if 0x200 ≤ n ∧ n < 0x300 then 0x400 + 8 * fuOf ((n - 0x200) / 8) + n % 8 else e.physical src

/-- register or latch error of an operand port (R282), unless the bundle has written the port. -/
def Env.portError (e : Env) (f p : Nat) : Except Trap Unit :=
  if e.y.regBad.contains (0x400 + 8 * f + p) &&
      !(e.dsts.any fun d => decide (0x100 ≤ d.toNat ∧ d.toNat < 0x200) && 8 * fuOf ((d.toNat - 0x100) / 8) + d.toNat % 8 == 8 * f + p) then
    .error (trapOf 0x10 0 (BitVec.ofNat 64 (0x200 + 8 * f + p)))
  else .ok ()

/-- register or latch error, when the register or latch read has one (R282). -/
def Env.regError (e : Env) (src : BitVec 10) : Except Trap Unit :=
  if e.y.regBad.contains (e.physical src) then .error (trapOf 0x10 0 (src.zeroExtend 64)) else .ok ()

/-! ### Operands that an operation reads -/

/-- Lane 0 of a vector value. -/
def VVal.lane0 (v : VVal) : Lane := lane v.bits 0

/-- The scalar of an operand; a vector operand gives 0. -/
def LVal.sval : LVal → SVal
  | .s x => x
  | .v _ => SVal.zero
/-- The vector of an operand; a scalar operand gives 0. -/
def LVal.vval : LVal → VVal
  | .v x => x
  | .s _ => VVal.zero

/-- An operand that an operation reads: its code (R272), the lanes read and the tags accepted beside raw (R121). -/
structure Use where
  val : LVal
  operand : Nat
  lanes : Mask
  tags : List Tag
  anyTag : Bool
  deriving DecidableEq, Repr

/-- A scalar operand: every tag is accepted. -/
def useS (v : SVal) (operand : Nat) : Use := ⟨.s v, operand, allLanes, [], true⟩
/-- A vector operand with accepted tags, over the lanes it reads. -/
def useV (v : VVal) (operand : Nat) (tags : List Tag) : Use := ⟨.v v, operand, allLanes, tags, false⟩
/-- A vector operand of any tag. -/
def useAny (v : VVal) (operand : Nat) : Use := ⟨.v v, operand, allLanes, [], true⟩

/-- Whether the tag or a format mark refuses the operand (R74, R121). -/
def Use.tagBad (u : Use) : Bool :=
  match u.val with
  | .s _ => false
  | .v v => v.mark || (!u.anyTag && v.tag != 0 && !u.tags.contains v.tag)
/-- The tag of the operand. -/
def Use.tag (u : Use) : Tag := match u.val with | .s v => v.tag | .v v => v.tag
/-- The poisoned lanes consumed (R281). -/
def Use.bad (u : Use) : Mask :=
  match u.val with
  | .s v => if v.poison then 1 else 0
  | .v v => v.poison &&& u.lanes
/-- The void bit of a poisoned operand. -/
def Use.void (u : Use) : Bool := match u.val with | .s _ => false | .v v => v.void
/-- The lowest set lane. -/
def lowLane (m : Mask) : Nat := ((List.range 128).find? fun i => m.getLsbD i).getD 0

/-- The detail word of consumed poison (R281). -/
def poisonWord (lane operand : Nat) (void : Bool) : BitVec 64 :=
  BitVec.ofNat 64 (lane + 256 * operand + if void then 2048 else 0)

/-- The operand that the trap of consumed poison names: the first of those whose poisoned lane is the lowest. -/
def lowestBad (u : Use) : List Use → Use
  | [] => u
  | v :: rest => lowestBad (if lowLane v.bad < lowLane u.bad then v else u) rest

/-- The trap of consumed poison, if any operand is poisoned: it names the lowest poisoned lane consumed (R281). -/
def consume (us : List Use) : Except Trap Unit :=
  match us.filter fun u => u.bad != 0 with
  | [] => .ok ()
  | u :: rest =>
    let w := lowestBad u rest
    .error (trapOf (if (u :: rest).all Use.void then 0x0F else 0x0E) 0 (poisonWord (lowLane w.bad) w.operand w.void))

/-- The poison that a Q or M register carries is consumed by the control slot, or by a guard, for which R281 names no operand code (code 6,
DESIGN CHOICE, log 48). -/
def Env.unpoisoned (e : Env) (src : BitVec 10) : Except Trap Unit :=
  if e.tainted src then .error (trapOf 0x0E 0 (poisonWord 0 6 false)) else .ok ()

/-- The checks of an operation's operands: tags and format marks in the order of the list, then poison (R121, R281). -/
def checkUses (us : List Use) : Except Trap Unit :=
  match us.find? Use.tagBad with
  | some u => .error (trapTag u.tag u.operand)
  | none => consume us

/-- A trap when a condition holds. -/
def trapIf (b : Bool) (t : Trap) : Except Trap Unit := if b then .error t else .ok ()

/-- A scalar port after the bundle's writes. -/
def Env.ps (e : Env) (f p : Nat) : SVal := e.r.rdSP f p
/-- A vector port after the bundle's writes. -/
def Env.pv (e : Env) (f p : Nat) : VVal := e.r.rdVP f p

/-! ### Accesses -/

/-- An access that a bundle makes: its first virtual address and bytes, whether it is a store or a reduction, which waits for none of the
context's own writes (R174), and whether R18 names it (a load,
store, feed, push, exchange, mark, vac or setm); the others wait only for a page walk (R291). -/
structure Acc where
  va : Nat
  len : Nat
  wr : Bool
  r18 : Bool
  deriving DecidableEq, Repr

/-- The place of an access, when it lies in one level and translates. -/
def Env.place (e : Env) (va : Nat) : Option (Nat × Nat) :=
  match lvlOf va with
  | none => none
  | some lvl =>
    match (e.s.core e.c).translate e.y lvl va with
    | .ok pa _ _ => some (lvl, pa)
    | _ => none

/-- A region violation for an access outside the carrel (R214). -/
def Env.pure (e : Env) (lvl : Nat) : Except Trap Unit := trapIf (e.y.region.isOpen && lvl != 1) trapRegion

/-- Translation and rights of one page of an access (R67, R290, R291). -/
def Env.page (e : Env) (lvl va : Nat) (rd wr : Bool) (a : BitVec 64) : Except Trap Nat :=
  match (e.s.core e.c).translate e.y lvl va with
  | .ok pa r w => if (rd && !r) || (wr && !w) then .error (trapXlat a 5) else .ok pa
  | .fault n => .error (trapXlat a n)
  | .miss => .error (trapXlat a 4)

/-- A gallery range that another core has claimed (R183). -/
def State.claimedBy (s : State) (c pa len : Nat) : Option Nat :=
  ((List.range ((pa + len - 1) / 16384 - pa / 16384 + 1)).findSome? fun i =>
    match s.claims.find? fun q => q.1 == pa / 16384 + i && q.2.core != c with
    | some q => some q.2.core
    | none => none)

/-- The claim-conflict fault of a range (R183). -/
def Env.claimFree (e : Env) (lvl pa len : Nat) (a : BitVec 64) : Except Trap Unit :=
  match (if lvl = 2 then e.s.claimedBy e.c pa len else none) with
  | some core => .error (trapClaim a core)
  | none => .ok ()

/-- The checks of one access but for claims (R65, R67, R71, R214, R290) and its place: level and physical address of its first
and of its last byte. -/
def Env.reach (e : Env) (va : BitVec 64) (len align : Nat) (rd wr : Bool) : Except Trap (Nat × Nat × Nat) := do
  let a := va.toNat
  match lvlOf a, lvlOf (a + len - 1) with
  | some lvl, some l2 =>
    trapIf (a % align != 0) (trapXlat va 1)
    trapIf (l2 != lvl) (trapXlat va 2)
    e.pure lvl
    let pa ← e.page lvl a rd wr va
    let pe ← e.page lvl (a + len - 1) rd wr va
    return (lvl, pa, pe)
  | _, _ => .error (trapXlat va 0)

/-- The checks of one access, claims included (R183). -/
def Env.access (e : Env) (va : BitVec 64) (len align : Nat) (rd wr : Bool) : Except Trap (Nat × Nat × Nat) := do
  let (lvl, pa, pe) ← e.reach va len align rd wr
  let a := va.toNat
  if pageOf a = pageOf (a + len - 1) then e.claimFree lvl pa len va
  else
    let n := 0x200000 - a % 0x200000
    e.claimFree lvl pa n va
    e.claimFree lvl (pe + 1 - (len - n)) (len - n) va
  return (lvl, pa, pe)

/-- The physical address of byte `i` of an access whose first and last bytes lie at `pa` and `pe`. -/
def byteAt (a len pa pe i : Nat) : Nat := if pageOf a = pageOf (a + i) then pa + i else pe - (len - 1 - i)

/-- A block that an operation reads for its own use (R190, R191, R225): in the carrel, aligned, not poisoned (R281). -/
def Env.block (e : Env) (va : BitVec 64) (len align : Nat) : Except Trap Nat := do
  let a := va.toNat
  trapIf (decide (0x200000 ≤ a)) (trapXlat va 0)
  trapIf (a % align != 0) (trapXlat va 1)
  match (List.range ((len + 15) / 16)).find? fun i => e.s.viewPoison e.c e.k 1 (a + 16 * i) with
  | some i => .error (trapOf 0x0E (BitVec.ofNat 64 ((a + 16 * i) / 16 * 16)) (poisonWord 0 5 false))
  | none => return e.s.viewN e.c e.k 1 a len

/-- A little-endian field of a block. -/
def field (blk off n : Nat) : Nat := (blk >>> (8 * off)) % 2 ^ (8 * n)
/-- A 32-bit word as a signed number. -/
def signed32 (x : Nat) : Int := (BitVec.ofNat 32 x).toInt

/-- The index of the bundle in its kernel (R10). -/
def Env.idx (e : Env) : Nat := e.s.bundleIdx e.y e.pc

/-- The delay that Callote has injected for a bundle of a launch, of all its commands together (R222). -/
def Env.injected (e : Env) : Nat :=
  ((e.s.out.delays.filter fun d => d.launch == some e.y.launch && d.core == e.c && d.ctx == e.k && d.bundle == e.idx).map Delay.cycles).sum

/-- The extra time of a best-effort access: any time for a free context outside the carrel (R174), none otherwise. -/
def Env.extra (e : Env) (s : State) (lvl : Nat) : Nat × State :=
  if e.y.timed || lvl == 1 then (0, s) else (s.draw.1 + e.injected, s.draw.2)

/-- The latency of a scalar access (R69). -/
def Env.lat (e : Env) (lvl pa : Nat) : Nat :=
  match lvl with
  | 1 => 6
  | 2 => ((e.s.core e.c).row (e.s.slice pa)).lg
  | _ => e.s.stackLat e.y.timed 900

/-- The latency of a vector access (R69): over pages of two slices, the larger, since R69 speaks of one slice (DESIGN CHOICE, log 50). -/
def Env.vlat (e : Env) (lvl : Nat) (pas : List Nat) : Nat :=
  match lvl with
  | 1 => 8
  | 2 => pas.foldl (fun m pa => max m (((e.s.core e.c).row (e.s.slice pa)).lg + 2)) 0
  | _ => e.s.stackLat e.y.timed 900

/-! ### Bank accesses (R83, R210) -/

/-- A gated bank begins to wake: it is awake within 1,700 cycles (R83). -/
def State.wakeBank (s : State) (b : Nat) : State :=
  if (s.bank b).state = 1 then
    let s := { s with banks := mput s.banks b { s.bank b with state := 2, last := s.clock } }
    let (d, s) := s.draw
    s.post (s.clock + d % 1701) true 0 0 (.bankAwake b)
  else s

/-- An access of an engine or of a page walk reaches a gallery bank: a gated one wakes, another's idle time starts again (R83). -/
def State.agentTouch (s : State) (lvl pa : Nat) : State :=
  let b := s.bank (frameOf pa)
  if lvl ≠ 2 then s
  else if b.state = 1 then s.wakeBank (frameOf pa)
  else { s with banks := mput s.banks (frameOf pa) { b with last := s.clock } }

/-- An access reaches a gallery bank: its idle time starts again; a timed access wakes a gated bank under a group hold. -/
def State.touchBank (s : State) (timed : Bool) (lvl pa : Nat) : State :=
  if lvl ≠ 2 then s
  else
    let b := s.bank (frameOf pa)
    if b.state = 1 ∧ timed then
      let s := { s with banks := mput s.banks (frameOf pa) { b with state := 2, last := s.clock } }
      let (d, s) := s.draw
      (s.requestHold 1 (some (1700 - s.gs.hLat))).post (s.clock + d % 1701) true 0 0 (.bankAwake (frameOf pa))
    else { s with banks := mput s.banks (frameOf pa) { b with last := s.clock } }

/-- An access of a timed context in the carrel takes the bank cycle of this clock, but for one whose position is 15 modulo 16 (R66, R159).
A free context's takes none from another free one: without a timed context every bank cycle is free (R92). -/
def State.useBank (s : State) (c k lvl : Nat) : State :=
  if lvl = 1 ∧ (s.ctx c k).timed ∧ s.pos (s.ctx c k) % 16 ≠ 15 then s.setCore c { s.core c with bank := true } else s

/-! ### Loads -/

/-- The bytes and poison of a list of 32-bit lanes at physical addresses. -/
def Env.lanesAt (e : Env) (lvl : Nat) (pas : Nat → Nat) : VVal :=
  { bits := ofLanes fun l => BitVec.ofNat 32 (e.s.viewN e.c e.k lvl (pas l) 4)
    tag := 0
    poison := ofMask fun l => e.s.viewPoison e.c e.k lvl (pas l)
    void := false
    mark := false }

/-- Whether a tag e9 value holds a container with a nonzero bit in 15:9 (R74, R102). -/
def badE9 (v : Lanes) : Bool :=
  (List.range 128).any fun l => (lane v l).extractLsb' 9 7 != 0 || (lane v l).extractLsb' 25 7 != 0

/-! ### Stores -/

/-- The undo log of an open region records the old contents of parts that it does not hold (R215). -/
def undoParts (e : Env) (s : State) (parts : List Nat) : Except Trap State :=
  let y := s.ctx e.c e.k
  if !y.region.isOpen then .ok s
  else
    let undo := parts.foldl (fun (u : List Undo) p =>
      if u.any (fun x => match x with | .part a .. => a == p | _ => false) then u
      else u ++ [.part p (BitVec.ofNat 128 (e.s.viewN e.c e.k 1 (16 * p) 16)) (e.s.viewPoison e.c e.k 1 (16 * p))]) y.region.undo
    if undo.length > 512 then .error trapRegion
    else .ok (s.setCtx e.c e.k { y with region := { y.region with undo := undo } })

/-- A byte to be stored: its virtual and physical address, value and poison. -/
structure SByte where
  va : Nat
  pa : Nat
  b : Byte
  poison : Bool
  deriving DecidableEq, Repr

/-- The distinct parts of a list of bytes, in ascending order of first use. -/
def partsOf (bs : List SByte) : List Nat :=
  (bs.foldl (fun (acc : List Nat) b => if acc.contains (b.pa / 16) then acc else (b.pa / 16) :: acc) []).reverse

/-- The poison that a store writes into the parts it touches (R70). -/
def storePoison (bs : List SByte) : List (Nat × Bool) :=
  (partsOf bs).filterMap fun p =>
    let mine := bs.filter fun b => b.pa / 16 == p
    if mine.any SByte.poison then some (p, true)
    else if (List.range 16).all fun i => mine.any fun b => b.pa % 16 == i then some (p, false) else none

/-- One byte stored into a part's data. -/
def putByte (data : BitVec 128) (i : Nat) (b : Byte) : BitVec 128 :=
  (data &&& ~~~((0xFF#128) <<< (8 * i))) ||| (b.zeroExtend 128 <<< (8 * i))

/-- The bytes of a store merge into an entry of the phase buffer (R177). -/
def PbEntry.merge (x : PbEntry) (bs : List SByte) : PbEntry :=
  let y := bs.foldl (fun (x : PbEntry) b =>
    { x with data := putByte x.data (b.pa % 16) b.b, mask := setBit x.mask (b.pa % 16) true }) x
  let full := (List.range 16).all fun i => bs.any fun b => b.pa % 16 == i
  { y with poison := bs.any SByte.poison || (x.poison && !full) }

/-- The bytes of one part go to the phase buffer: into the entry of the storing task, or into a new entry. -/
def pbufPut (buf : List PbEntry) (task : BitVec 20) (part : Nat) (bs : List SByte) : List PbEntry :=
  if buf.any fun e => e.pa / 16 == part && e.task == task then
    buf.map fun e => if e.pa / 16 == part && e.task == task then e.merge bs else e
  else
    match bs with
    | [] => buf
    | b :: _ => buf ++ [PbEntry.merge ⟨b.va / 16 * 16, part * 16, 0, 0, false, task⟩ bs]

/-- A gallery store goes to the phase buffer (R177), which must have room. -/
def pbufStore (e : Env) (s : State) (bs : List SByte) : Except Trap State :=
  let y := s.ctx e.c e.k
  let parts := partsOf bs
  let fresh := parts.filter fun p => !(y.pbuf.any fun x => x.pa / 16 == p && x.task == y.taskId)
  let room := 4096 - y.pbuf.length - y.closed.length
  if fresh.length > room then
    let p := (fresh.drop room).headD 0
    let va := (((bs.find? fun b => b.pa / 16 == p).map SByte.va).getD 0) / 16 * 16
    .error (trapOf 0x0C (BitVec.ofNat 64 va) (BitVec.ofNat 64 room))
  else
    .ok (s.setCtx e.c e.k { y with
      pbuf := parts.foldl (fun buf p => pbufPut buf y.taskId p (bs.filter fun b => b.pa / 16 == p)) y.pbuf
      pbufLaunch := y.launch })

/-- Whether this core holds a claim on a gallery folio (R184). -/
def State.ownClaim (s : State) (c pa : Nat) : Bool := s.claims.any fun q => q.1 == pa / 16384 && q.2.core == c

/-- The aligned words that cells write, with 0 for a byte that they do not (log 28). -/
def storeWords (cells : List (Nat × Byte)) : List (Nat × BitVec 64) :=
  ((cells.map fun (c : Nat × Byte) => c.1 / 8).dedup).map fun w =>
    (8 * w, BitVec.ofNat 64 (wordAt (fun a => cellsAt cells a 0) (8 * w) 8))

/-- The words that a store writes to the carrel will enter the signature of an open region, at the end of this clock (R217): those of a
store at its issue. -/
def State.signStore (s : State) (c k : Nat) (cells : List (Nat × Byte)) : State :=
  let y := s.ctx c k
  if k < 4 ∧ y.region.isOpen then s.setCtx c k { y with region := { y.region with stored := y.region.stored ++ storeWords cells } } else s

/-- A store of bytes into one level (R69, R89, R177, R184): the carrel and the stacks, and gallery folios this core has claimed,
at the landing; other gallery bytes into the phase buffer. A best-effort store is performed part by part (R90, R174). -/
def Env.store (e : Env) (s : State) (lvl lat : Nat) (bs : List SByte) : Except Trap State := do
  let direct := if lvl = 2 then bs.filter fun b => s.ownClaim e.c b.pa else bs
  let buffered := if lvl = 2 then bs.filter fun b => !s.ownClaim e.c b.pa else []
  let s ← if lvl = 1 then undoParts e s (partsOf bs) else .ok s
  let s := bs.foldl (fun s b => s.touchBank e.y.timed lvl b.pa) s
  let s := if lvl = 1 then s.signStore e.c e.k (bs.map fun b => (b.pa, b.b)) else s
  let s ← if buffered.isEmpty then .ok s else pbufStore e s buffered
  if direct.isEmpty then return s
  else if e.y.timed || lvl == 1 then
    return s.pend e.c e.k lvl true lat 0 (.write (direct.map fun b => (b.pa, b.b)) (storePoison direct) none)
  else
    return (partsOf direct).foldl (fun s p =>
      let bs := direct.filter fun b => b.pa / 16 == p
      let (x, s) := e.extra s lvl
      s.pend e.c e.k lvl true lat x (.write (bs.map fun b => (b.pa, b.b)) (storePoison bs) none)) s

/-! ### Operations -/

/-- An operation of a unit: the accesses it makes when it starts, for the waits of R18; whether its bundle is held for another
reason (R73, R80, R86, R149, R227), with the state in which it is held; and its effect. -/
structure Op where
  acc : Env → LVal → List Acc
  hold : Env → LVal → State → Option State
  run : Env → LVal → State → Except Trap State

/-- An operation without accesses. -/
def Op.plain (run : Env → LVal → State → Except Trap State) : Op :=
  ⟨fun _ _ => [], fun _ _ _ => none, run⟩

/-- An operation that makes accesses and is held by nothing else. -/
def Op.mem (acc : Env → LVal → List Acc) (run : Env → LVal → State → Except Trap State) : Op :=
  ⟨acc, fun _ _ _ => none, run⟩

/-- A scalar-result operation (R30): checks its operands and lands z and y. -/
def opLand (f lat : Nat) (us : List Use) (z y : Option LVal) (fl : BitVec 5) (e : Env) (s : State) : Except Trap State := do
  checkUses us
  return s.lands e.c e.k f lat z y fl

end Sys2Proof.Machine
end

