-- ==== Sys2Proof/Machine/Scalar.lean ====
section
/-! DEFINITION. The scalar units: sa0 and sa1 (R39 to R41) and sm (R42, R43). Each operation of the opcode map is one
definition, over the unit's identifier where two units share it. -/

namespace Sys2Proof.Machine

/-- 1 when the relation holds, else 0 (R41). -/
def flag (b : Bool) : BitVec 64 := if b then 1 else 0

/-- Leading zero bits; 64 for 0 (R41). -/
def clz64 (x : BitVec 64) : Nat := if x = 0 then 64 else 63 - x.toNat.log2
/-- Trailing zero bits; 64 for 0 (R41). -/
def ctz64 (x : BitVec 64) : Nat := ((List.range 64).find? fun i => x.getLsbD i).getD 64
/-- Set bits (R41). -/
def popc64 (x : BitVec 64) : Nat := (List.range 64).countP fun i => x.getLsbD i
/-- A field's position t[5:0] (R41). -/
def fieldPos (t : BitVec 64) : Nat := (t.extractLsb' 0 6).toNat
/-- 2^w - 1 with w = min(t[14:8], 64) (R41). -/
def fieldMask (t : BitVec 64) : BitVec 64 := BitVec.ofNat 64 (2 ^ min (t.extractLsb' 8 7).toNat 64 - 1)
/-- Saturation to 64 bits (R41). -/
def sat64 (x : Int) : BitVec 64 :=
  if x > 2 ^ 63 - 1 then BitVec.ofInt 64 (2 ^ 63 - 1) else if x < -(2 ^ 63) then BitVec.ofInt 64 (-(2 ^ 63)) else BitVec.ofInt 64 x

/-- An operation of sa0 or sa1 (R39): it reads a, b and t, whichever its result depends on, and lands at +1 with tag raw. -/
def saOp (f : Nat) (fn : Word → Word → Word → Word) : Op := Op.plain fun e t s =>
  opLand f 1 [useS (e.ps f 0) 0, useS (e.ps f 1) 1, useS t.sval 4] (some (raw (fn (e.ps f 0).val (e.ps f 1).val t.sval.val))) none 0 e s

/-- add (R40). -/
def opAdd (f : Nat) : Op := saOp f fun a _ t => a + t

/-- sub (R40). -/
def opSub (f : Nat) : Op := saOp f fun a _ t => a - t

/-- and (R40). -/
def opAnd (f : Nat) : Op := saOp f fun a _ t => a &&& t

/-- or (R40). -/
def opOr (f : Nat) : Op := saOp f fun a _ t => a ||| t

/-- xor (R40). -/
def opXor (f : Nat) : Op := saOp f fun a _ t => a ^^^ t

/-- andn (R40). -/
def opAndn (f : Nat) : Op := saOp f fun a _ t => a &&& ~~~t

/-- shl (R40). -/
def opShl (f : Nat) : Op := saOp f fun a _ t => a <<< (t.extractLsb' 0 6).toNat

/-- shr (R40). -/
def opShr (f : Nat) : Op := saOp f fun a _ t => a >>> (t.extractLsb' 0 6).toNat

/-- sar (R40). -/
def opSar (f : Nat) : Op := saOp f fun a _ t => a.sshiftRight (t.extractLsb' 0 6).toNat

/-- min (R40). -/
def opMin (f : Nat) : Op := saOp f fun a _ t => if a.slt t then a else t

/-- max (R40). -/
def opMax (f : Nat) : Op := saOp f fun a _ t => if a.slt t then t else a

/-- minu (R40). -/
def opMinu (f : Nat) : Op := saOp f fun a _ t => if a.ult t then a else t

/-- maxu (R40). -/
def opMaxu (f : Nat) : Op := saOp f fun a _ t => if a.ult t then t else a

/-- sel (R40). -/
def opSel (f : Nat) : Op := saOp f fun a b t => if b ≠ 0 then a else t

/-- pass (R40). -/
def opPass (f : Nat) : Op := saOp f fun _ _ t => t

/-- hi (R40). -/
def opHi (f : Nat) : Op := saOp f fun a _ t => t.extractLsb' 0 32 ++ a.extractLsb' 0 32

/-- ceq (R41). -/
def opCeq (f : Nat) : Op := saOp f fun a _ t => flag (a == t)

/-- cne (R41). -/
def opCne (f : Nat) : Op := saOp f fun a _ t => flag (a != t)

/-- clt (R41). -/
def opClt (f : Nat) : Op := saOp f fun a _ t => flag (a.slt t)

/-- cltu (R41). -/
def opCltu (f : Nat) : Op := saOp f fun a _ t => flag (a.ult t)

/-- cle (R41). -/
def opCle (f : Nat) : Op := saOp f fun a _ t => flag (a.sle t)

/-- cleu (R41). -/
def opCleu (f : Nat) : Op := saOp f fun a _ t => flag (a.ule t)

/-- clz (R41). -/
def opClz (f : Nat) : Op := saOp f fun _ _ t => BitVec.ofNat 64 (clz64 t)

/-- ctz (R41). -/
def opCtz (f : Nat) : Op := saOp f fun _ _ t => BitVec.ofNat 64 (ctz64 t)

/-- popc (R41). -/
def opPopc (f : Nat) : Op := saOp f fun _ _ t => BitVec.ofNat 64 (popc64 t)

/-- sx8 (R41). -/
def opSx8 (f : Nat) : Op := saOp f fun _ _ t => sext t 8

/-- sx16 (R41). -/
def opSx16 (f : Nat) : Op := saOp f fun _ _ t => sext t 16

/-- sx32 (R41). -/
def opSx32 (f : Nat) : Op := saOp f fun _ _ t => sext t 32

/-- zx32 (R41). -/
def opZx32 (f : Nat) : Op := saOp f fun _ _ t => zext t 32

/-- bext (R41). -/
def opBext (f : Nat) : Op := saOp f fun a _ t => (a >>> fieldPos t) &&& fieldMask t

/-- bins (R41). -/
def opBins (f : Nat) : Op := saOp f fun a b t => (a &&& ~~~(fieldMask t <<< fieldPos t)) ||| ((b <<< fieldPos t) &&& (fieldMask t <<< fieldPos t))

/-- adds (R41). -/
def opAdds (f : Nat) : Op := saOp f fun a _ t => sat64 (a.toInt + t.toInt)

/-! ### sm (R42, R43) -/

/-- An operation of sm: it reads a and t, and lands z after its latency with tag raw (R42). -/
def smOp (lat : Nat) (fn : Word → Word → Word) : Op := Op.plain fun e t s =>
  opLand 4 lat [useS (e.ps 4 0) 0, useS t.sval 4] (some (raw (fn (e.ps 4 0).val t.sval.val))) none 0 e s

/-- Signed quotient, truncated toward zero, with the cases of R43. -/
def sdiv (a t : Word) : Word := if t = 0 then BitVec.allOnes 64 else BitVec.ofInt 64 (a.toInt.tdiv t.toInt)
/-- Unsigned quotient (R43). -/
def udiv (a t : Word) : Word := if t = 0 then BitVec.allOnes 64 else a / t
/-- Signed remainder (R43). -/
def srem (a t : Word) : Word := if t = 0 then a else BitVec.ofInt 64 (a.toInt.tmod t.toInt)
/-- Unsigned remainder (R43). -/
def urem (a t : Word) : Word := if t = 0 then a else a % t

/-- mul (R42). -/
def opMul : Op := smOp 3 fun a t => a * t

/-- mulh (R42). -/
def opMulh : Op := smOp 3 fun a t => BitVec.ofInt 64 (a.toInt * t.toInt / 2 ^ 64)

/-- mulhu (R42). -/
def opMulhu : Op := smOp 3 fun a t => BitVec.ofNat 64 (a.toNat * t.toNat / 2 ^ 64)

/-- div (R43). -/
def opDiv : Op := smOp 18 sdiv

/-- divu (R43). -/
def opDivu : Op := smOp 18 udiv

/-- rem (R43). -/
def opRem : Op := smOp 18 srem

/-- remu (R43). -/
def opRemu : Op := smOp 18 urem

/-- mix: a is the seed, t the counter (R15, R42). -/
def opMix : Op := smOp 4 mix

end Sys2Proof.Machine
end

