-- ==== Sys2Proof/Machine/LoadStore.lean ====
section
/-! DEFINITION. Loads and stores of registers: lsc (R71 to R73), lv0 and lv1 (R74, R75) and the spill bursts (R84 to R88). -/

namespace Sys2Proof.Machine

/-! ### lsc -/

/-- The address of an lsc load, a + t (R71). -/
def lscLoadEA (e : Env) (t : LVal) : BitVec 64 := (e.ps 5 0).val + t.sval.val
/-- The address of an lsc store, a + b (R71). -/
def lscStoreEA (e : Env) : BitVec 64 := (e.ps 5 0).val + (e.ps 5 1).val

/-- An lsc load of `n` bytes (R71): sign- or zero-extended, with the poison of its part (R70), landing at the level's latency. -/
def lscLoad (n : Nat) (signed : Bool) : Op :=
  Op.mem (fun e t => [⟨(lscLoadEA e t).toNat, n, false, true⟩]) fun e t s => do
    checkUses [useS (e.ps 5 0) 0, useS t.sval 4]
    let (lvl, pa, _) ← e.access (lscLoadEA e t) n n true false
    let x := BitVec.ofNat 64 (e.s.viewN e.c e.k lvl pa n)
    let v : SVal := ⟨if signed then sext x (8 * n) else x, 0, e.s.viewPoison e.c e.k lvl pa⟩
    let (d, s) := e.extra (s.touchBank e.y.timed lvl pa) lvl
    return s.pend e.c e.k lvl false (e.lat lvl pa) d (.land 5 (some (.s v)) none 0)

/-- The bytes of a scalar store. -/
def scalarBytes (va pa n : Nat) (v : SVal) : List SByte :=
  (List.range n).map fun i => ⟨va + i, pa + i, BitVec.ofNat 8 (v.val.toNat >>> (8 * i)), v.poison⟩

/-- An lsc store of the low `n` bytes of t (R71). -/
def lscStore (n : Nat) : Op :=
  Op.mem (fun e _ => [⟨(lscStoreEA e).toNat, n, true, true⟩]) fun e t s => do
    checkUses [useS (e.ps 5 0) 0, useS (e.ps 5 1) 1]
    let (lvl, pa, _) ← e.access (lscStoreEA e) n n false true
    e.store s lvl (e.lat lvl pa) (scalarBytes (lscStoreEA e).toNat pa n t.sval)

/-- ld8 (R71). -/
def opLd8 : Op := lscLoad 1 true
/-- ld8u (R71). -/
def opLd8u : Op := lscLoad 1 false
/-- ld16 (R71). -/
def opLd16 : Op := lscLoad 2 true
/-- ld16u (R71). -/
def opLd16u : Op := lscLoad 2 false
/-- ld32 (R71). -/
def opLd32 : Op := lscLoad 4 true
/-- ld32u (R71). -/
def opLd32u : Op := lscLoad 4 false
/-- ld64 (R71). -/
def opLd64 : Op := lscLoad 8 false
/-- st8 (R71). -/
def opSt8 : Op := lscStore 1
/-- st16 (R71). -/
def opSt16 : Op := lscStore 2
/-- st32 (R71). -/
def opSt32 : Op := lscStore 4
/-- st64 (R71). -/
def opSt64 : Op := lscStore 8

/-- cas (R72): a carrel word, read and conditionally written as one access at +6; lsc.z takes the old word then. -/
def opCas : Op :=
  Op.mem (fun e _ => [⟨(e.ps 5 0).val.toNat, 8, true, true⟩]) fun e t s => do
    checkUses [useS (e.ps 5 0) 0, useS (e.ps 5 1) 1, useS t.sval 4]
    let a := (e.ps 5 0).val
    trapIf (decide (0x200000 ≤ a.toNat)) (trapXlat a 0)
    trapIf (a.toNat % 8 != 0) (trapXlat a 1)
    let s ← undoParts e s [a.toNat / 16]
    return s.pend e.c e.k 1 true 6 0 (.cas a.toNat (e.ps 5 1).val t.sval.val)

/-- The checks of one of ldlive's two reads (R73): aligned, in the carrel or the gallery. -/
def ldliveRead (e : Env) (va : BitVec 64) (n : Nat) : Except Trap (Nat × Nat × Nat) := do
  trapIf (lvlOf va.toNat == some 3) (trapXlat va 0)
  e.access va n n true false

/-- One read of an ldlive starts (R73): its value is formed now (R159), and it lands at the level's latency as any load does (R174). -/
def liveLoad (e : Env) (id : Nat) (codex : Bool) (va : BitVec 64) (lvl pa n : Nat) (s : State) : State :=
  let bad := ((List.range ((n + 15) / 16)).find? fun i => e.s.viewPoison e.c e.k lvl (pa + 16 * i)).map
    fun i => BitVec.ofNat 64 ((va.toNat + 16 * i) / 16 * 16)
  let (x, s) := e.extra ((s.touchBank e.y.timed lvl pa).useBank e.c e.k lvl) lvl
  s.pend e.c e.k lvl false (e.lat lvl pa) x (.live id codex (BitVec.ofNat 512 (e.s.viewN e.c e.k lvl pa n)) bad)

/-- Both reads of an ldlive start when its bundle comes to issue and their checks pass (R73). -/
def ldliveStart (e : Env) (t : LVal) (s : State) : Option State :=
  match checkUses [useS (e.ps 5 0) 0, useS t.sval 4], ldliveRead e (e.ps 5 0).val 8, ldliveRead e t.sval.val 64 with
  | .ok _, .ok (l1, p1, _), .ok (l2, p2, _) =>
    let id := s.free
    let s := s.setCtx e.c e.k { s.ctx e.c e.k with ldl := some ⟨id, none, none⟩ }
    some (liveLoad e id true t.sval.val l2 p2 64 (liveLoad e id false (e.ps 5 0).val l1 p1 8 s))
  | _, _, _ => none

/-- A read of an ldlive lands (R73): the count word or the codex. -/
def LiveRead.take (r : LiveRead) (id : Nat) (codex : Bool) (v : BitVec 512) (bad : Option (BitVec 64)) : LiveRead :=
  if r.id ≠ id then r else if codex then { r with codex := some (v, bad) } else { r with count := some (v.extractLsb' 0 64, bad) }

/-- The launch's deferral bit is set (R73, R147). -/
def State.setDefer (s : State) (l : BitVec 64) : State := s.setLaunch l { s.launch l with defer := true }

/-- The accesses of an ldlive: its two reads; those in the carrel are over once they have started, and use no bank cycle when the bundle
issues (R66, R92). -/
def ldliveAcc (e : Env) (t : LVal) : List Acc :=
  [(⟨(e.ps 5 0).val.toNat, 8, false, true⟩ : Acc), ⟨t.sval.val.toNat, 64, false, true⟩].filter fun a => e.y.ldl.isNone || lvlOf a.va != some 1

/-- ldlive (R73): held until both reads have landed; then the count clamped by the codex's bound. -/
def opLdlive : Op :=
  { acc := ldliveAcc
    hold := fun e t s =>
      match e.y.ldl with
      | some r => if r.count.isNone || r.codex.isNone then some s else none
      | none => ldliveStart e t s
    run := fun e t s => do
      checkUses [useS (e.ps 5 0) 0, useS t.sval 4]
      let _ ← ldliveRead e (e.ps 5 0).val 8
      let _ ← ldliveRead e t.sval.val 64
      let count := ((e.y.ldl.bind LiveRead.count).getD (0, none))
      let codex := ((e.y.ldl.bind LiveRead.codex).getD (0, none))
      match count.2.orElse fun _ => codex.2 with
      | some a => .error (trapOf 0x0E a (poisonWord 0 5 false))
      | none =>
        let n := count.1.toNat
        let b := field codex.1.toNat 0x0C 4
        let s := s.setCtx e.c e.k { s.ctx e.c e.k with ldl := none }
        if n ≤ b then return s.lands e.c e.k 5 1 (some (raw (BitVec.ofNat 64 n))) (some (raw 0)) 0
        else if (field codex.1.toNat 2 2) % 2 = 0 then .error (trapCodex count.1 0)
        else return (s.setDefer e.y.launch).lands e.c e.k 5 1 (some (raw (BitVec.ofNat 64 b))) (some (raw (BitVec.ofNat 64 (n - b)))) 0 }

/-! ### lv0 and lv1: addresses -/

/-- The active lanes of an access. -/
def activeLanes (m : Mask) : List Nat := (List.range 128).filter fun l => m.getLsbD l

/-- The checks of the lane addresses of one vector access (R65, R74, R75): every active lane in a level and aligned, all in one
level, translated, readable or writable, and not claimed. Its level and the physical address of each active lane. With no active lane
there is no level, and the model takes the carrel's, whose latency 12 R69 then gives (DESIGN CHOICE, log 50). -/
def lanesAccess (e : Env) (addr : Nat → BitVec 64) (act : Mask) (rd wr : Bool) : Except Trap (Nat × List (Nat × Nat)) := do
  let ls := activeLanes act
  match ls with
  | [] => return (1, [])
  | l0 :: _ =>
    ls.forM fun l => do
      trapIf (lvlOf (addr l).toNat).isNone (trapXlat (addr l) 0)
      trapIf ((addr l).toNat % 4 != 0) (trapXlat (addr l) 1)
    trapIf (ls.any fun l => lvlOf (addr l).toNat != lvlOf (addr l0).toNat) (trapXlat (addr l0) 2)
    let lvl := (lvlOf (addr l0).toNat).getD 1
    e.pure lvl
    let pas ← ls.mapM fun l => do
      let pa ← e.page lvl (addr l).toNat rd wr (addr l)
      e.claimFree lvl pa 4 (addr l)
      return (l, pa)
    return (lvl, pas)

/-- The physical address of a lane. -/
def laneAddr (pas : List (Nat × Nat)) (l : Nat) : Nat := mget pas 0 l

/-- The accesses of lanes, for the waits of R18. -/
def lanesAcc (addr : Nat → BitVec 64) (act : Mask) (wr : Bool) : List Acc :=
  (activeLanes act).map fun l => ⟨(addr l).toNat, 4, wr, true⟩

/-- EA := a + t (R75). -/
def lvEA (f : Nat) (e : Env) (t : LVal) : BitVec 64 := (e.ps f 0).val + t.sval.val

/-- The lane addresses of a contiguous access. -/
def contig (f : Nat) (e : Env) (t : LVal) (l : Nat) : BitVec 64 := lvEA f e t + BitVec.ofNat 64 (4 * l)
/-- The lane addresses of a strided access; b is signed (R75). -/
def strided (f : Nat) (e : Env) (t : LVal) (l : Nat) : BitVec 64 := lvEA f e t + BitVec.ofNat 64 l * (e.ps f 1).val
/-- The lane addresses of vldb: 64 bytes in every cluster. -/
def replicated (f : Nat) (e : Env) (t : LVal) (l : Nat) : BitVec 64 := lvEA f e t + BitVec.ofNat 64 (4 * (l % 16))
/-- The index register of a gather or scatter, as step 2 reads it (R75, R29). -/
def indexReg (e : Env) (t : LVal) : VVal := e.y.regs.rdV (t.sval.val.extractLsb' 0 6).toNat
/-- The source code of the index register. -/
def indexSrc (_ : Env) (t : LVal) : BitVec 10 := 0x40#10 + (t.sval.val.extractLsb' 0 6).zeroExtend 10
/-- The lane addresses of a gather or scatter (R75). -/
def indexed (f : Nat) (e : Env) (t : LVal) (l : Nat) : BitVec 64 :=
  (e.ps f 0).val + (lane (indexReg e t).bits l).zeroExtend 64 * (e.ps f 1).val

/-- The latency of a gather or scatter (R69). -/
def gatherLat (e : Env) (lvl : Nat) : Nat :=
  match lvl with
  | 1 => 12
  | 2 => (e.s.core e.c).lgMax + 2
  | _ => e.s.stackLat e.y.timed 900

/-! ### lv0 and lv1: loads -/

/-- The format code of a load (R74). -/
def loadTag (f : Nat) (e : Env) : Tag := (e.ps f 2).val.extractLsb' 0 6

/-- A vector load (R74, R75): lane `l` is the word at its address, an inactive lane 0; its tag is c[5:0]; a bad E9 container
marks z. -/
def lvLoad (f : Nat) (uses : Env → LVal → List Use) (addr : Env → LVal → Nat → BitVec 64) (act : Env → Mask)
    (gather : Bool) : Op :=
  Op.mem (fun e t => lanesAcc (addr e t) (act e) false) fun e t s => do
    if gather then e.regError (indexSrc e t)
    checkUses (uses e t ++ [useS (e.ps f 2) 2, useS t.sval 4])
    trapIf (tagReserved (loadTag f e)) (trapTag (loadTag f e) 6)
    let (lvl, pas) ← lanesAccess e (addr e t) (act e) true false
    let v := e.lanesAt lvl (laneAddr pas)
    let keep := act e
    let v : VVal := { v with bits := ofLanes fun l => if keep.getLsbD l then lane v.bits l else 0
                             poison := v.poison &&& keep, tag := loadTag f e }
    let v := { v with mark := v.tag == 6 && badE9 v.bits }
    let s := pas.foldl (fun s p => s.touchBank e.y.timed lvl p.2) s
    let (d, s) := e.extra s lvl
    return s.pend e.c e.k lvl false (if gather then gatherLat e lvl else e.vlat lvl (pas.map Prod.snd)) d
      (.land f (some (.v v)) none 0)

/-- The post-increment of vldp and vstp (R75): port a := a + b in step 4, and y at +1. -/
def postInc (f : Nat) (e : Env) (s : State) : State :=
  let a := (e.ps f 0).val + (e.ps f 1).val
  let y := s.ctx e.c e.k
  (s.setCtx e.c e.k ({ y with regs := y.regs.wrSP f 0 (sv a) }.mend (0x400 + 8 * f))).lands e.c e.k f 1 none (some (raw a)) 0

/-- An operation followed by the post-increment. -/
def Op.post (f : Nat) (o : Op) : Op :=
  { o with run := fun e t s => do let s ← o.run e t s; return postInc f e s }

/-- vld (R75). -/
def opVld (f : Nat) : Op := lvLoad f (fun e _ => [useS (e.ps f 0) 0]) (contig f) (fun _ => allLanes) false
/-- vldp (R75). -/
def opVldp (f : Nat) : Op :=
  (lvLoad f (fun e _ => [useS (e.ps f 0) 0, useS (e.ps f 1) 1]) (contig f) (fun _ => allLanes) false).post f
/-- vlds (R75). -/
def opVlds (f : Nat) : Op :=
  lvLoad f (fun e _ => [useS (e.ps f 0) 0, useS (e.ps f 1) 1]) (strided f) (fun _ => allLanes) false
/-- vldb (R75). -/
def opVldb (f : Nat) : Op := lvLoad f (fun e _ => [useS (e.ps f 0) 0]) (replicated f) (fun _ => allLanes) false
/-- vgat (R75): the active lanes. -/
def opVgat (f : Nat) : Op :=
  lvLoad f (fun e t => [useS (e.ps f 0) 0, useS (e.ps f 1) 1, { useAny (indexReg e t) 4 with lanes := e.y.regs.top }])
    (indexed f) (fun e => e.y.regs.top) true

/-! ### lv0 and lv1: stores -/

/-- The bytes of the active lanes of d, in ascending lanes, so that the highest lane's value stands (R75). -/
def laneBytes (addr : Nat → BitVec 64) (pas : List (Nat × Nat)) (d : VVal) : List SByte :=
  pas.flatMap fun p => (List.range 4).map fun i =>
    ⟨(addr p.1).toNat + i, p.2 + i, (lane d.bits p.1).extractLsb' (8 * i) 8, d.poison.getLsbD p.1⟩

/-- Keeps the last byte stored at each address. -/
def lastBytes (bs : List SByte) : List SByte :=
  match bs with
  | [] => []
  | b :: t => if t.any fun x => x.pa == b.pa then lastBytes t else b :: lastBytes t

/-- A vector store of the active lanes of d (R75); tags and c are ignored, a format mark of d traps (R74). -/
def lvStore (f : Nat) (uses : Env → LVal → List Use) (addr : Env → LVal → Nat → BitVec 64) (gather : Bool) : Op :=
  Op.mem (fun e t => lanesAcc (addr e t) e.y.regs.top true) fun e t s => do
    if gather then e.regError (indexSrc e t)
    checkUses (uses e t ++ [{ useAny (e.pv f 3) 3 with lanes := 0 }, useS t.sval 4])
    let (lvl, pas) ← lanesAccess e (addr e t) e.y.regs.top false true
    e.store s lvl (if gather then gatherLat e lvl else e.vlat lvl (pas.map Prod.snd))
      (lastBytes (laneBytes (addr e t) pas (e.pv f 3)))

/-- vst (R75). -/
def opVst (f : Nat) : Op := lvStore f (fun e _ => [useS (e.ps f 0) 0]) (contig f) false
/-- vstp (R75). -/
def opVstp (f : Nat) : Op := (lvStore f (fun e _ => [useS (e.ps f 0) 0, useS (e.ps f 1) 1]) (contig f) false).post f
/-- vsts (R75). -/
def opVsts (f : Nat) : Op := lvStore f (fun e _ => [useS (e.ps f 0) 0, useS (e.ps f 1) 1]) (strided f) false
/-- vsct (R75). -/
def opVsct (f : Nat) : Op :=
  lvStore f (fun e t => [useS (e.ps f 0) 0, useS (e.ps f 1) 1, { useAny (indexReg e t) 4 with lanes := e.y.regs.top }])
    (indexed f) true

/-! ### Spill bursts (R84 to R88) -/

/-- The capacity C of the carve-out in bytes (R84). -/
def Spill.cap (x : Spill) : Nat := x.cfol.toNat * 16384
/-- The address of the record at depth `d` (R84). -/
def Spill.addr (x : Spill) (d : Nat) : BitVec 64 :=
  if d < x.cap then BitVec.ofNat 64 (x.cbase.toNat + d) else x.obase + BitVec.ofNat 64 (d - x.cap)

/-- The obase and olimit that sbase sets (R88). -/
def Env.sbaseOf (e : Env) (t : LVal) : BitVec 64 × BitVec 32 := (t.sval.val, (e.ps 21 0).val.extractLsb' 0 32 &&& ~~~0x1FF#32)

/-- The spill state that the records of a bundle find: an sbase of the same bundle acts before them (R88, log 55). -/
def Env.spill (e : Env) : Spill :=
  match e.sbase with
  | some q => { e.y.regs.spill with obase := q.1, olimit := q.2 }
  | none => e.y.regs.spill

/-- Whether the record at depth `d` can be made: its level and place (R86, R214). A record beyond the carve-out whose address is not in
the gallery meets a translation fault with reason 0 (DESIGN CHOICE, log 50: R84 calls obase a gallery address and gives no check). -/
def spillCheck (e : Env) (x : Spill) (d : Nat) (wr : Bool) : Except Trap (Nat × Nat × Nat) := do
  trapIf (e.y.region.isOpen && decide (x.cap ≤ d)) trapRegion
  trapIf (wr && decide (x.cap ≤ d ∧ x.olimit.toNat < d - x.cap + 512)) (trapOf 0x14 (BitVec.ofNat 64 d) 0)
  trapIf (decide (x.cap ≤ d) && lvlOf (x.addr d).toNat != some 2) (trapXlat (x.addr d) 0)
  e.access (x.addr d) 512 4 (!wr) wr

/-- The number m of registers of a burst: V(n) to V(min(n + k, 64) - 1) (R86). -/
def burstLen (n k : Nat) : Nat := min (n + k) 64 - n

/-- The record at which a burst of unit `f` starts: prog, unless prog is of a burst of the other unit in the same bundle (R87). -/
def Env.burstFrom (e : Env) (f : Nat) : Nat :=
  if (e.y.prog.getLsbD 7 == decide (f = 7)) || e.bursts.all fun b => b.1 == f then e.y.regs.spill.prog.toNat else 0

/-- The records that come before record `i` from now of a burst of unit `f`, spills less fills: those of earlier bundles that are due by
then, and those of the bundle's burst on the other unit, lv0 before lv1 in a cycle. -/
def Env.ahead (e : Env) (f i : Nat) : Int :=
  (e.s.agenda.foldl (fun (n : Int) p =>
    match p.ev with
    | .spill _ fill _ _ _ _ _ _ =>
      if p.core == e.c && p.ctx == e.k && decide (p.due ≤ e.s.time p.onClock + i) then (if fill then n - 1 else n + 1) else n
    | _ => n) 0) +
  e.bursts.foldl (fun (n : Int) b =>
    if b.1 = f then n
    else
      let made : Int := ((min (if b.1 < f then i + 1 else i) (b.2.2 - e.burstFrom b.1) : Nat) : Int)
      if b.2.1 then n - made else n + made) 0

/-- The depth at which record `i` from now of a burst is made: before a spill, after a fill. -/
def Env.burstDepth (e : Env) (f : Nat) (fill : Bool) (i : Nat) : Int :=
  e.y.regs.spill.depth.toNat + 512 * (e.ahead f i + (if fill then -((i : Int) + 1) else i))

/-- The check of record `i` from now before it is reached (R86). -/
def burstCheck (e : Env) (f : Nat) (fill : Bool) (i : Nat) : Except Trap Unit := do
  let d := e.burstDepth f fill i
  trapIf (decide (d < 0)) (trapOf 0x14 0 0)
  let _ ← spillCheck e e.spill d.toNat (!fill)
  return ()

/-- The first of `n` records of a burst that cannot be made, with its trap. -/
def burstStop (e : Env) (f : Nat) (fill : Bool) (n : Nat) : Option (Nat × Trap) :=
  (List.range n).findSome? fun i =>
    match burstCheck e f fill i with
    | .error t => some (i, t)
    | .ok _ => none

/-- Whether a burst on the other unit of the bundle stops before record `i` of unit `f` is reached. -/
def Env.otherStops (e : Env) (f i : Nat) : Bool :=
  e.bursts.any fun b => b.1 != f &&
    match burstStop e b.1 b.2.1 (b.2.2 - e.burstFrom b.1) with
    | some (j, _) => decide (j < i ∨ (j = i ∧ b.1 < f))
    | none => false

/-- The undo log holds the carrel parts that the next `n` records of a spill write (R215). -/
def burstUndo (f : Nat) (fill : Bool) (e : Env) (s : State) (n : Nat) : Except Trap State :=
  if fill then .ok s
  else
    undoParts e s ((List.range n).flatMap fun i =>
      let d := (e.burstDepth f fill i).toNat
      if d < e.y.regs.spill.cap then (List.range 32).map fun j => (e.y.regs.spill.cbase.toNat + d) / 16 + j else [])

/-- The register that record `j` of a burst of m registers from `n` moves: a fill starts from the top (R86). -/
def burstReg (fill : Bool) (n m j : Nat) : Nat := if fill then n + m - 1 - j else n + j

/-- The next `c` records of a burst from record `p` are scheduled, one a cycle (R86). -/
def burstRecords (f : Nat) (fill : Bool) (n m : Nat) (tag : Tag) (e : Env) (s : State) (p c : Nat) : State :=
  (List.range c).foldl (fun s i =>
    let reg := burstReg fill n m (p + i)
    s.pend e.c e.k 0 false i 0
      (.spill f fill (physSV e.y.regs.base reg) (e.y.regs.rdV reg) tag (decide (p + i + 1 = m)) e.pc (p + i))) s

/-- A record of a burst: cycles from now, unit, whether it fills. -/
abbrev Rec := Nat × Nat × Bool

/-- The context's records that its earlier bundles have yet to make, and those that this bundle's bursts add. -/
def Env.oldRecords (e : Env) : List Rec :=
  e.s.agenda.filterMap fun p =>
    match p.ev with
    | .spill f fill .. => if p.core == e.c && p.ctx == e.k then some (p.due - e.s.time p.onClock, f, fill) else none
    | _ => none
def Env.newRecords (e : Env) : List Rec :=
  e.bursts.flatMap fun b => (List.range (b.2.2 - e.burstFrom b.1)).map fun i => (i, b.1, b.2.1)

/-- The depth at which a record is made behind those of `rs` that come before it (R86). -/
def recordDepth (x : Spill) (rs : List Rec) (r : Rec) : Int :=
  let d : Int := rs.foldl (fun (d : Int) q =>
    if q.1 < r.1 ∨ (q.1 = r.1 ∧ q.2.1 < r.2.1) then (if q.2.2 then d - 512 else d + 512) else d) x.depth.toNat
  if r.2.2 then d - 512 else d

/-- Whether a record can be made behind those of `rs` that come before it, with a spill state (R86). -/
def Env.recordFits (e : Env) (x : Spill) (rs : List Rec) (r : Rec) : Bool :=
  let d := recordDepth x rs r
  decide (0 ≤ d) && (spillCheck e x d.toNat (!r.2.2)).isOk

/-- The parts of a gallery range that a store puts into the phase buffer, virtual and physical numbers: those outside the folios that the core
has claimed (R177, R184). -/
def Env.bufferParts (e : Env) (a len : Nat) : List (Nat × Nat) :=
  ((List.range ((len + 30) / 16)).filter fun i => decide (16 * (a / 16 + i) < a + len)).filterMap fun i =>
    match e.place (16 * (a / 16 + i)) with
    | some (2, pa) => if e.s.ownClaim e.c pa then none else some (a / 16 + i, pa / 16)
    | _ => none

/-- The parts that the spills among some records put into the phase buffer (R84, R177). -/
def Env.spillParts (e : Env) (x : Spill) (rs : List Rec) : List (Nat × Nat) :=
  rs.flatMap fun r =>
    let d := (recordDepth x rs r).toNat
    if r.2.2 || decide (d < x.cap) then [] else e.bufferParts (x.addr d).toNat 512

/-- The distinct parts for which the phase buffer of a context has no entry of its task (R177). -/
def Ctx.freshParts (y : Ctx) (ps : List (Nat × Nat)) : List (Nat × Nat) :=
  (ps.foldl (fun (acc : List (Nat × Nat)) p => if acc.any fun q => q.2 == p.2 then acc else p :: acc) []).reverse.filter fun p =>
    !(y.pbuf.any fun x => x.pa / 16 == p.2 && x.task == y.taskId)

/-- The entries that are free in a context's phase buffer (R177). -/
def Ctx.pbufRoom (y : Ctx) : Nat := 4096 - y.pbuf.length - y.closed.length

/-- A burst of `n` records that the phase buffer cannot hold traps at its bundle, of which nothing commits, no record either: phase-buffer
full is not among the faults that leave the records before them (R177, R272). -/
def burstRoom (f : Nat) (e : Env) (s : State) (n : Nat) : Except Trap Unit :=
  let y := s.ctx e.c e.k
  let rs := e.oldRecords ++ e.newRecords.filter fun r => r.2.1 != f || decide (r.1 < n)
  match (y.freshParts (e.spillParts e.spill rs)).drop y.pbufRoom with
  | [] => .ok ()
  | p :: _ => .error (trapOf 0x0C (BitVec.ofNat 64 (16 * p.1)) (BitVec.ofNat 64 y.pbufRoom))

/-- Whether a bundle's stores would take entries of the phase buffer that the records of an earlier bundle's burst have yet to take: it waits
until they have been made, since the burst has been found to fit (R177, R272, log 55). -/
def Env.crowds (e : Env) (accs : List Acc) : Bool :=
  let held := e.spillParts e.y.regs.spill e.oldRecords
  !held.isEmpty &&
    (let mine := accs.flatMap fun a => if a.wr && a.r18 then e.bufferParts a.va a.len else []
     !mine.isEmpty && decide (e.y.pbufRoom < (e.y.freshParts (held ++ mine)).length))

/-- Whether the bundle, by a burst of the other unit or an sbase, would stop a burst of an earlier bundle that can go on as things stand: it
waits until that burst's records have been made, since only so is a fault on a burst precise to its bundle (R87, log 55). -/
def Env.breaksBurst (e : Env) : Bool :=
  let old := e.oldRecords
  !old.isEmpty && !(e.bursts.isEmpty && e.sbase.isNone) && old.all (e.recordFits e.y.regs.spill old) &&
    !(old.all (e.recordFits e.spill (old ++ e.newRecords)))

/-- The progress of a burst, with the unit that it is of (R87). -/
def Ctx.setProg (y : Ctx) (f j : Nat) : Ctx :=
  { y with prog := if j ≠ 0 ∧ f = 7 then 128 else 0, regs := { y.regs with spill := { y.regs.spill with prog := BitVec.ofNat 7 j } } }

/-- The first register n of a burst and the number m of its registers (R86). -/
def burstRun (f : Nat) (e : Env) (t : LVal) : Nat × Nat :=
  let n := (t.sval.val.extractLsb' 0 6).toNat
  (n, burstLen n (e.ps f 1).val.toNat)

/-- The records that a burst makes before the one that cannot be made (R87): its bundle waits until that one is reached. -/
def burstPart (f : Nat) (fill : Bool) (e : Env) (t : LVal) (s : State) (c : Nat) : State :=
  let (n, m) := burstRun f e t
  let p := e.burstFrom f
  match burstUndo f fill e s c with
  | .ok s =>
    let s := burstRecords f fill n m (loadTag f e) e s p c
    s.setCtx e.c e.k { (s.ctx e.c e.k).setProg f (p + c) with readyAt := e.s.clock + c }
  | .error _ => s

/-- A spill or fill burst (R86). With no register it does nothing; with none left, prog becomes 0 and y lands the depth. A burst that
stops traps at its bundle, with the number of records that it makes before (R87); in a region nothing of a bundle that spills or
fills the overflow area happens (R214). A spill reads every register of its run, format marks among them (R74). -/
def burst (f : Nat) (fill : Bool) : Op :=
  Op.mem
    (fun e t =>
      (List.range ((burstRun f e t).2 - e.burstFrom f)).map fun i =>
        ⟨(e.spill.addr (e.burstDepth f fill i).toNat).toNat, 512, false, true⟩)
    fun e t s => do
      let (n, m) := burstRun f e t
      let p := e.burstFrom f
      let regs := if fill then [] else (List.range (m - p)).map fun i => n + p + i
      regs.forM fun r => e.regError (BitVec.ofNat 10 (0x40 + r))
      checkUses ([useS (e.ps f 1) 1] ++ (if fill then [useS (e.ps f 2) 2] else []) ++ [useS t.sval 4] ++
        regs.map fun r => { useAny (e.y.regs.rdV r) 4 with lanes := 0 })
      trapIf (fill && tagReserved (loadTag f e)) (trapTag (loadTag f e) 6)
      let y := s.ctx e.c e.k
      if m = 0 then return s
      else if m ≤ p then
        return (s.setCtx e.c e.k (y.setProg f 0)).lands e.c e.k f 0 none (some (raw e.y.regs.spill.depth)) 0
      else
        match burstStop e f fill (m - p) with
        | some (i, t) =>
          if e.otherStops f i then return s
          else
            burstRoom f e s i
            let _ ← burstUndo f fill e s i
            .error { t with burst := some f, made := if t.cls = 0x16 then 0 else i }
        | none =>
          burstRoom f e s (m - p)
          let s ← burstUndo f fill e s (m - p)
          let s := burstRecords f fill n m (loadTag f e) e s p (m - p)
          return s.setCtx e.c e.k ((s.ctx e.c e.k).setProg f 0)

/-- vspl (R86). -/
def opVspl (f : Nat) : Op := burst f false
/-- vfil (R86). -/
def opVfil (f : Nat) : Op := burst f true

end Sys2Proof.Machine
end

