-- ==== Sys2Proof/Machine/Vector.lean ====
section
/-! DEFINITION. The vector ALUs va0 and va1 (R125 to R130), the triad unit vt (R131, R132), the special-function unit vs
(R134) and the quantise-and-convert unit vq (R135 to R138). -/

namespace Sys2Proof.Machine

/-- The tag f32. -/
def tF32 : Tag := 2
/-- The tag i32. -/
def tI32 : Tag := 1

/-- The flags of the lanes of a mask, ORed (R97, R122). -/
def orFlags (m : Mask) (f : Nat → BitVec 5) : BitVec 5 :=
  (List.range 128).foldl (fun acc l => if m.getLsbD l then acc ||| f l else acc) 0

/-- A vector result without poison. -/
def vv (bits : Lanes) (tag : Tag) : LVal := .v ⟨bits, tag, 0, false, false⟩

/-- A unit's vector operation: checks its operands, lands z, and raises flags (R121, R122). -/
def vecOp (f lat : Nat) (us : Env → LVal → List Use) (z : Env → LVal → Lanes) (tag : Env → LVal → Tag)
    (fl : Env → LVal → BitVec 5) : Op := Op.plain fun e t s =>
  opLand f lat (us e t) (some (vv (z e t) (tag e t))) none (fl e t) e s

/-- No flags. -/
def noFlags : Env → LVal → BitVec 5 := fun _ _ => 0

/-- An FP32 operation of two operands a and t with flags from the active lanes. -/
def vaF2 (f : Nat) (fn : Lane → Lane → Lane × BitVec 5) : Op :=
  vecOp f 4 (fun e t => [useV (e.pv f 0) 0 [tF32], useV t.vval 4 [tF32]])
    (fun e t => ofLanes fun l => (fn (lane (e.pv f 0).bits l) (lane t.vval.bits l)).1) (fun _ _ => tF32)
    (fun e t => orFlags e.y.regs.top fun l => (fn (lane (e.pv f 0).bits l) (lane t.vval.bits l)).2)

/-- An operation of t alone. -/
def vaT (f : Nat) (tags : List Tag) (tag : Tag) (readsC : Bool) (fn : Nat → Lane → Lane × BitVec 5) : Op :=
  let c := fun (e : Env) => (e.ps f 2).val.toNat
  vecOp f 4 (fun e t => (if readsC then [useS (e.ps f 2) 2] else []) ++ [useV t.vval 4 tags])
    (fun e t => ofLanes fun l => (fn (c e) (lane t.vval.bits l)).1) (fun _ _ => tag)
    (fun e t => orFlags e.y.regs.top fun l => (fn (c e) (lane t.vval.bits l)).2)

/-- fadd (R126). -/
def opFadd (f : Nat) : Op := vaF2 f fadd
/-- fsub (R126). -/
def opFsub (f : Nat) : Op := vaF2 f fsub
/-- fmul (R126). -/
def opFmul (f : Nat) : Op := vaF2 f fmul
/-- ffma (R126). -/
def opFfma (f : Nat) : Op :=
  let fn := fun (e : Env) (t : LVal) (l : Nat) => ffma (lane (e.pv f 0).bits l) (lane (e.pv f 1).bits l) (lane t.vval.bits l)
  vecOp f 4 (fun e t => [useV (e.pv f 0) 0 [tF32], useV (e.pv f 1) 1 [tF32], useV t.vval 4 [tF32]])
    (fun e t => ofLanes fun l => (fn e t l).1) (fun _ _ => tF32) (fun e t => orFlags e.y.regs.top fun l => (fn e t l).2)
/-- fmin (R126). -/
def opFmin (f : Nat) : Op := vaF2 f fmin
/-- fmax (R126). -/
def opFmax (f : Nat) : Op := vaF2 f fmax
/-- fabs (R126). -/
def opFabs (f : Nat) : Op := vaT f [tF32] tF32 false fun _ x => (fabs x, 0)
/-- fneg (R126). -/
def opFneg (f : Nat) : Op := vaT f [tF32] tF32 false fun _ x => (fneg x, 0)
/-- fcmp (R126, R127). -/
def opFcmp (f : Nat) : Op :=
  let fn := fun (e : Env) (t : LVal) (l : Nat) => fcmp ((e.ps f 2).val.toNat % 8) (lane (e.pv f 0).bits l) (lane t.vval.bits l)
  vecOp f 4 (fun e t => [useV (e.pv f 0) 0 [tF32], useS (e.ps f 2) 2, useV t.vval 4 [tF32]])
    (fun e t => ofLanes fun l => (fn e t l).1) (fun _ _ => 0) (fun e t => orFlags e.y.regs.top fun l => (fn e t l).2)
/-- fcvti (R98, R126). -/
def opFcvti (f : Nat) : Op := vaT f [tF32] tI32 true fun c x => fcvti (c % 4) x
/-- icvtf (R98, R126). -/
def opIcvtf (f : Nat) : Op := vaT f [tI32] tF32 false fun _ x => icvtf x
/-- frnd (R98, R126). -/
def opFrnd (f : Nat) : Op := vaT f [tF32] tF32 true fun c x => (frnd (c % 4) x, 0)

/-- The tag that fsel takes: that of a and t, or the one that is not raw (R126). -/
def selTag (a t : Tag) : Tag := if a = 0 then t else a

/-- fsel (R126): two different tags that are not raw trap. -/
def opFsel (f : Nat) : Op := Op.plain fun e t s => do
  let a := e.pv f 0
  let b := e.pv f 1
  let x := t.vval
  checkUses [useAny a 0, useAny b 1, useV x 4 (if a.tag = 0 then [x.tag] else [a.tag])]
  return s.lands e.c e.k f 4
    (some (vv (ofLanes fun l => if lane b.bits l ≠ 0 then lane a.bits l else lane x.bits l) (selTag a.tag x.tag))) none 0

/-! ### Page B -/

/-- An i32 operation of a and t without flags (R128). -/
def vaI2 (f : Nat) (fn : Lane → Lane → Lane) : Op :=
  vecOp f 4 (fun e t => [useV (e.pv f 0) 0 [tI32], useV t.vval 4 [tI32]])
    (fun e t => ofLanes fun l => fn (lane (e.pv f 0).bits l) (lane t.vval.bits l)) (fun _ _ => tI32) noFlags

/-- a's tag if a and t carry the same tag, else raw (R128). -/
def sameTag (a t : Tag) : Tag := if a = t then a else 0

/-- A bit operation of a and t of any tag (R128). -/
def vaBits (f : Nat) (fn : Lane → Lane → Lane) : Op :=
  vecOp f 4 (fun e t => [useAny (e.pv f 0) 0, useAny t.vval 4])
    (fun e t => ofLanes fun l => fn (lane (e.pv f 0).bits l) (lane t.vval.bits l))
    (fun e t => sameTag (e.pv f 0).tag t.vval.tag) noFlags

/-- A shift of a by t[4:0] (R95, R128). -/
def vaShift (f : Nat) (fn : Lane → Nat → Lane) : Op :=
  vecOp f 4 (fun e t => [useAny (e.pv f 0) 0, useV t.vval 4 [tI32]])
    (fun e t => ofLanes fun l => fn (lane (e.pv f 0).bits l) ((lane t.vval.bits l).toNat % 32))
    (fun e _ => (e.pv f 0).tag) noFlags

/-- iadd (R128). -/
def opIadd (f : Nat) : Op := vaI2 f fun a t => a + t
/-- isub (R128). -/
def opIsub (f : Nat) : Op := vaI2 f fun a t => a - t
/-- imul (R128). -/
def opImul (f : Nat) : Op := vaI2 f fun a t => a * t
/-- vand (R128). -/
def opVand (f : Nat) : Op := vaBits f fun a t => a &&& t
/-- vor (R128). -/
def opVor (f : Nat) : Op := vaBits f fun a t => a ||| t
/-- vxor (R128). -/
def opVxor (f : Nat) : Op := vaBits f fun a t => a ^^^ t
/-- vshl (R128). -/
def opVshl (f : Nat) : Op := vaShift f fun a n => a <<< n
/-- vshr (R128). -/
def opVshr (f : Nat) : Op := vaShift f fun a n => a >>> n
/-- vsar (R128). -/
def opVsar (f : Nat) : Op := vaShift f fun a n => a.sshiftRight n
/-- The lesser, signed. -/
def iminL (a t : Lane) : Lane := if a.slt t then a else t
/-- The greater, signed. -/
def imaxL (a t : Lane) : Lane := if a.slt t then t else a
/-- imin (R128). -/
def opImin (f : Nat) : Op := vaI2 f iminL
/-- imax (R128). -/
def opImax (f : Nat) : Op := vaI2 f imaxL
/-- icmp (R128). -/
def opIcmp (f : Nat) : Op :=
  vecOp f 4 (fun e t => [useV (e.pv f 0) 0 [tI32], useS (e.ps f 2) 2, useV t.vval 4 [tI32]])
    (fun e t => ofLanes fun l => icmp ((e.ps f 2).val.toNat % 8) (lane (e.pv f 0).bits l) (lane t.vval.bits l))
    (fun _ _ => 0) noFlags

/-- The lanes of a that a lane move reads, for poison (R281). -/
def lanesRead (src : Nat → Nat) : Mask := (List.range 128).foldl (fun m l => setBit m (src l) true) 0

/-- A lane move (R129): z[l] := a[src l]; it reads `lanes` of t. -/
def laneMove (f lat : Nat) (readsC : Bool) (tl : Env → Mask) (src : Env → VVal → Nat → Nat) : Op :=
  vecOp f lat (fun e t => [{ useAny (e.pv f 0) 0 with lanes := lanesRead (src e t.vval) }] ++
      (if readsC then [useS (e.ps f 2) 2] else []) ++ [{ useV t.vval 4 [tI32] with lanes := tl e }])
    (fun e t => ofLanes fun l => lane (e.pv f 0).bits (src e t.vval l)) (fun e _ => (e.pv f 0).tag) noFlags

/-- lbc (R129), landing at +6. -/
def opLbc (f : Nat) : Op :=
  laneMove f 6 true (fun _ => 1) fun e t l =>
    if (e.ps f 2).val.getLsbD 0 then 16 * (l / 16) + t.lane0.toNat % 16 else t.lane0.toNat % 128
/-- lperm (R129). -/
def opLperm (f : Nat) : Op :=
  laneMove f 4 false (fun _ => allLanes) fun _ t l => 16 * (l / 16) + (lane t.bits l).toNat % 16
/-- xcl (R129), landing at +8. -/
def opXcl (f : Nat) : Op :=
  laneMove f 8 false (fun _ => 1) fun _ t l => 16 * ((l / 16 + 8 - t.lane0.toNat % 8) % 8) + l % 16

/-- One step of a reduction (R130). -/
def redStep (op : Nat) (acc x : Lane) : Lane × BitVec 5 :=
  match op with
  | 0 => fadd acc x
  | 1 => fmin acc x
  | 2 => fmax acc x
  | 3 => (acc + x, 0)
  | 4 => (iminL acc x, 0)
  | 5 => (imaxL acc x, 0)
  | 6 => (if acc.ult x then acc else x, 0)
  | _ => (if acc.ult x then x else acc, 0)

/-- The start of a reduction at its first element (R130): sums start from -0 or 0, the float minimum and maximum from the
element with R96 applied. -/
def redStart (op : Nat) (x : Lane) : Lane × BitVec 5 :=
  match op with
  | 0 => fadd 0x80000000#32 x
  | 1 | 2 => if (f32 x).isNan then (cNaN, flIf (f32 x).sig flNv) else (x, 0)
  | _ => (x, 0)

/-- A reduction over elements in order; over none it is +0 or 0 (R115, R130). -/
def reduceList (op : Nat) : List Lane → Lane × BitVec 5
  | [] => (0, 0)
  | x :: rest =>
    rest.foldl (fun (acc : Lane × BitVec 5) y => ((redStep op acc.1 y).1, acc.2 ||| (redStep op acc.1 y).2)) (redStart op x)

/-- The active lanes of cluster `j` of t, in ascending order. -/
def clusterLanes (m : Mask) (t : Lanes) (j : Nat) : List Lane :=
  ((List.range 16).filter fun i => m.getLsbD (16 * j + i)).map fun i => lane t (16 * j + i)

/-- lred (R130). -/
def opLred (f : Nat) : Op := Op.plain fun e t s => do
  let op := (e.ps f 2).val.toNat % 8
  let tag := if op < 3 then tF32 else tI32
  checkUses [useS (e.ps f 2) 2, { useV t.vval 4 [tag] with lanes := e.y.regs.top }]
  let rs := (List.range 8).map fun j => reduceList op (clusterLanes e.y.regs.top t.vval.bits j)
  return s.lands e.c e.k f 4 (some (vv (ofLanes fun l => (rs.getD (l / 16) (0, 0)).1) tag)) none
    (rs.foldl (fun acc r => acc ||| r.2) 0)

/-! ### vt (R131, R132) -/

/-- A stage's value and flags. -/
def stageVal (op : Nat) (x y : Lane) : Lane × BitVec 5 :=
  match op with
  | 0 => fadd x y
  | 1 => fsub x y
  | 2 => fsub y x
  | 3 => fmul x y
  | 4 => fmin x y
  | 5 => fmax x y
  | 6 => ffma y y x
  | 7 => (fneg (fmul x y).1, (fmul x y).2)
  | 8 => (x + y, 0)
  | 9 => (x - y, 0)
  | 10 => (x &&& y, 0)
  | 11 => (x ||| y, 0)
  | 12 => (x ^^^ y, 0)
  | 13 => (x <<< (y.toNat % 32), 0)
  | 14 => (x, 0)
  | _ => (y, 0)

/-- The tag of a stage's result. -/
def stageTag (op : Nat) (x y : Tag) : Tag :=
  if op < 8 then tF32 else if op < 10 then tI32 else if op < 13 then sameTag x y else if op < 15 then x else y

/-- Whether a stage refuses its first or second input's tag (R132). -/
def stageBadX (op : Nat) (x : Tag) : Bool :=
  if op < 8 then x != 0 && x != tF32 else if op < 10 then x != 0 && x != tI32 else false
def stageBadY (op : Nat) (y : Tag) : Bool :=
  if op < 8 then y != 0 && y != tF32 else if op < 10 || op == 13 then y != 0 && y != tI32 else false

/-- Whether a stage reads its first or second input: pass does not read y, take does not read x (R132). -/
def stageReadsX (op : Nat) : Bool := op != 15
def stageReadsY (op : Nat) : Bool := op != 14

/-- The operands of a triad that are read: an input that only feeds an ignored input of a later stage is still an operand of
its own stage. -/
def triadUses (e : Env) (o1 o2 o3 : Nat) : List Use :=
  (if stageReadsX o1 then [useAny (e.pv 12 0) 0] else []) ++ (if stageReadsY o1 then [useAny (e.pv 12 1) 1] else []) ++
  (if stageReadsY o2 then [useAny (e.pv 12 2) 2] else []) ++ (if stageReadsY o3 then [useAny (e.pv 12 3) 3] else [])

/-- vt.tri i (R131, R132): three chained stages of recipe i per lane, landing at +12; t is not read. -/
def opVtTri (i : Nat) : Op := Op.plain fun e _ s => do
  let r := (mget e.y.regs.recipe 0 i).toNat
  let o1 := r / 256 % 16
  let o2 := r / 16 % 16
  let o3 := r % 16
  let a := e.pv 12 0
  let b := e.pv 12 1
  let c := e.pv 12 2
  let d := e.pv 12 3
  let t1 := stageTag o1 a.tag b.tag
  let t2 := stageTag o2 t1 c.tag
  trapIf (stageReadsX o1 && (a.mark || stageBadX o1 a.tag)) (trapTag a.tag 0)
  trapIf (stageReadsY o1 && (b.mark || stageBadY o1 b.tag)) (trapTag b.tag 1)
  trapIf (stageReadsX o2 && stageBadX o2 t1) (trapTag t1 7)
  trapIf (stageReadsY o2 && (c.mark || stageBadY o2 c.tag)) (trapTag c.tag 2)
  trapIf (stageReadsX o3 && stageBadX o3 t2) (trapTag t2 7)
  trapIf (stageReadsY o3 && (d.mark || stageBadY o3 d.tag)) (trapTag d.tag 3)
  consume (triadUses e o1 o2 o3)
  let run := fun l =>
    let s1 := stageVal o1 (lane a.bits l) (lane b.bits l)
    let s2 := stageVal o2 s1.1 (lane c.bits l)
    let s3 := stageVal o3 s2.1 (lane d.bits l)
    (s3.1, s1.2 ||| s2.2 ||| s3.2)
  return s.lands e.c e.k 12 12 (some (vv (ofLanes fun l => (run l).1) (stageTag o3 t2 d.tag))) none
    (orFlags e.y.regs.top fun l => (run l).2)

/-! ### vs (R134) -/

/-- A special function of t (R134). -/
def vsT (lat : Nat) (tag : Tag) (fn : Lane → Lane × BitVec 5) : Op :=
  vecOp 13 lat (fun _ t => [useV t.vval 4 [tF32]]) (fun _ t => ofLanes fun l => (fn (lane t.vval.bits l)).1)
    (fun _ _ => tag) (fun e t => orFlags e.y.regs.top fun l => (fn (lane t.vval.bits l)).2)

/-- A special function of a and t (R134). -/
def vsAT (lat : Nat) (tt : Tag) (fn : Lane → Lane → Lane × BitVec 5) : Op :=
  vecOp 13 lat (fun e t => [useV (e.pv 13 0) 0 [tF32], useV t.vval 4 [tt]])
    (fun e t => ofLanes fun l => (fn (lane (e.pv 13 0).bits l) (lane t.vval.bits l)).1) (fun _ _ => tF32)
    (fun e t => orFlags e.y.regs.top fun l => (fn (lane (e.pv 13 0).bits l) (lane t.vval.bits l)).2)

/-- rcpa (R116). -/
def opRcpa : Op := vsT 6 tF32 rcpa
/-- rsqa (R116). -/
def opRsqa : Op := vsT 6 tF32 rsqa
/-- rcpn (R117). -/
def opRcpn : Op := vsAT 8 tF32 rcpn
/-- rsqn (R117). -/
def opRsqn : Op := vsAT 8 tF32 rsqn
/-- exp2a (R118). -/
def opExp2a : Op := vsT 6 tF32 exp2a
/-- log2a (R118). -/
def opLog2a : Op := vsT 6 tF32 log2a
/-- fsqrt (R118). -/
def opFsqrt : Op := vsT 14 tF32 fsqrt
/-- fdiv (R118). -/
def opFdiv : Op := vsAT 14 tF32 fdiv
/-- fscl (R118). -/
def opFscl : Op := vsAT 6 tI32 fscl
/-- fexp (R118). -/
def opFexp : Op := vsT 6 tI32 fun x => (fexp x, 0)

/-! ### vq (R135 to R138) -/

/-- The tag e9. -/
def tE9 : Tag := 6

/-- The control word b of vq (R103): head, adapt, mode, thr, gbase. -/
def vqHead (b : Word) : Int := (b.extractLsb' 0 2).toNat
def vqAdapt (b : Word) : Bool := b.getLsbD 2
def vqMode (b : Word) : Nat := (b.extractLsb' 3 2).toNat
def vqThr (b : Word) : Nat := (b.extractLsb' 8 8).toNat
def vqGbase (b : Word) : BitVec 64 := (b.extractLsb' 16 48).zeroExtend 64

/-- The scale container of block `i` in d (R135). -/
def container (d : Lanes) (i : Nat) : BitVec 16 := (lane d (i / 2)).extractLsb' (16 * (i % 2)) 16
/-- The scale S of block `i`. -/
def scaleOf (d : Lanes) (i : Nat) : Nat := (container d i).toNat

/-- Lanes 0 and 1, those of d that vq reads (R135). -/
def lanes01 : Mask := 3

/-- The operand d of vq: e9 or raw, and every container it reads with bits 15:9 zero (R135). -/
def vqScales (e : Env) : List Use := [{ useV (e.pv 14 3) 3 [tE9] with lanes := lanes01 }]
/-- The trap of a container with a nonzero bit in 15:9 (R135). -/
def vqContainers (e : Env) : Except Trap Unit :=
  trapIf ((List.range 4).any fun i => (container (e.pv 14 3).bits i).extractLsb' 9 7 != 0) (trapTag (e.pv 14 3).tag 3)

/-- The format code c[5:0] of vq. -/
def vqFmt (e : Env) : Tag := (e.ps 14 2).val.extractLsb' 0 6

/-- A packed result: element `n` in byte n mod 4 of lane n div 4 (R135). -/
def packed (f : Nat → Nat) : Lanes :=
  ofLanes fun l => if l < 32 then BitVec.ofNat 32 (f (4 * l) + 256 * f (4 * l + 1) + 65536 * f (4 * l + 2) +
    16777216 * f (4 * l + 3)) else 0

/-- The number of elements of block `i` that satisfy a test. -/
def blockCount (i : Nat) (p : Nat → Bool) : Nat := (List.range 32).countP fun j => p (32 * i + j)

/-- The counts of four blocks in lanes 0 to 3, tag i32 (R108). -/
def countLanes (n : Nat → Nat) : LVal := vv (ofLanes fun l => if l < 4 then BitVec.ofNat 32 (n l) else 0) tI32

/-- The stochastic numerator of element `n` (R105). -/
def vqRandom (e : Env) (n : Nat) : Nat := stochBits e.y.seed (vqGbase (e.ps 14 1).val + BitVec.ofNat 64 n)

/-- The scale and count that bmax chooses for block `i` (R107), after the block before it. A block whose lanes are all infinite has no
finite lane, and its m is taken as 0 (DESIGN CHOICE, log 18). -/
def bmaxBlock (e : Env) (t : Lanes) (fmt : K8) (i prev : Nat) : Nat × Nat :=
  let b := (e.ps 14 1).val
  let xs := (List.range 32).map fun j => lane t (32 * i + j)
  if xs.any fun x => (f32 x).isNan then (511, 0)
  else
    -- the largest finite magnitude: its code orders as its value
    let m := xs.foldl (fun acc x => let y := x &&& 0x7FFFFFFF#32; if y.toNat < 0x7F800000 ∧ acc < y.toNat then y.toNat else acc) 0
    match f32 (BitVec.ofNat 32 m) with
    | .fin _ mm me =>
      if mm = 0 then (0, 0)
      else
        let s0 := me + (mm.log2 : Nat) - fmt.eTop + vqHead b
        let s1 :=
          if vqAdapt b && decide (1 ≤ i ∧ vqThr b < prev) && !fmt.overflows mm (me - (s0 - 1)) then s0 - 1 else s0
        let sc := (min (max (s1 + 256) 0) 510).toNat
        (sc, blockCount i fun n => (fmt.element (vqMode b) (vqRandom e n) sc (lane t n)).2.2)
    | _ => (0, 0)

/-- The scales and counts of the four blocks, in ascending order. -/
def bmaxAll (e : Env) (t : Lanes) (fmt : K8) : List (Nat × Nat) :=
  (List.range 4).foldl (fun acc i => acc ++ [bmaxBlock e t fmt i ((acc.getLast?.map Prod.snd).getD 0)]) []

/-- bmax (R107). -/
def opBmax : Op := Op.plain fun e t s => do
  checkUses [useS (e.ps 14 1) 1, useS (e.ps 14 2) 2, useV t.vval 4 [tF32]]
  trapIf (!isK8 (vqFmt e)) (trapTag (vqFmt e) 6)
  let rs := bmaxAll e t.vval.bits (k8Of (vqFmt e))
  let sc := fun i => (rs.getD i (0, 0)).1
  return s.lands e.c e.k 14 6
    (some (vv (ofLanes fun l => if l < 2 then BitVec.ofNat 32 (sc (2 * l) + 65536 * sc (2 * l + 1)) else 0) tE9))
    (some (countLanes fun i => (rs.getD i (0, 0)).2)) 0

/-- qnt (R104, R105, R108). -/
def opQnt : Op := Op.plain fun e t s => do
  checkUses ([useS (e.ps 14 1) 1, useS (e.ps 14 2) 2] ++ vqScales e ++ [useV t.vval 4 [tF32]])
  trapIf (!isK8 (vqFmt e)) (trapTag (vqFmt e) 6)
  vqContainers e
  let fmt := k8Of (vqFmt e)
  let r := fun n => fmt.element (vqMode (e.ps 14 1).val) (vqRandom e n) (scaleOf (e.pv 14 3).bits (n / 32)) (lane t.vval.bits n)
  return s.lands e.c e.k 14 6 (some (vv (packed fun n => (r n).1) (vqFmt e))) (some (countLanes fun i => blockCount i fun n => (r n).2.2))
    (orFlags allLanes fun n => (r n).2.1)

/-- Element `n` of a packed value. -/
def elem8 (t : Lanes) (n : Nat) : Nat := ((lane t (n / 4)).toNat >>> (8 * (n % 4))) % 256

/-- The format dqt reads: t's tag, or c[5:0] for raw (R136). -/
def dqtFmt (e : Env) (t : VVal) : Tag := if t.tag = 0 then vqFmt e else t.tag

/-- One element dequantised (R136). -/
def dqtElem (fmt : Tag) (sc c : Nat) : Lane × BitVec 5 :=
  if sc = 511 then (cNaN, 0)
  else
    match elemValue fmt c with
    | .nan _ => (cNaN, 0)
    | .inf s => (signBit s ||| 0x7F800000#32, 0)
    | .fin s m e => if m = 0 then (signBit s, 0) else roundF32 s m (e + (sc : Int) - 256)

/-- dqt (R136). -/
def opDqt : Op := Op.plain fun e t s => do
  let x := t.vval
  checkUses ((if x.tag = 0 then [useS (e.ps 14 2) 2] else []) ++ vqScales e ++ [useAny x 4])
  trapIf (x.tag != 0 && !(isK8 x.tag || x.tag == 4 || x.tag == 5)) (trapTag x.tag 4)
  trapIf (x.tag == 0 && !isK8 (vqFmt e)) (trapTag (vqFmt e) 6)
  vqContainers e
  let r := fun n => dqtElem (dqtFmt e x) (scaleOf (e.pv 14 3).bits (n / 32)) (elem8 x.bits n)
  return s.lands e.c e.k 14 6 (some (vv (ofLanes fun n => (r n).1) tF32)) none (orFlags allLanes fun n => (r n).2)

/-- cvb (R136): elements below 128 from t, the others from a. -/
def opCvb : Op := Op.plain fun e t s => do
  checkUses [useV (e.pv 14 0) 0 [tF32], useV t.vval 4 [tF32]]
  let r := fun n => if n < 128 then toB16 (lane t.vval.bits n) else toB16 (lane (e.pv 14 0).bits (n - 128))
  return s.lands e.c e.k 14 6 (some (vv (ofLanes fun l => (r (2 * l + 1)).1 ++ (r (2 * l)).1) 3)) none
    (orFlags allLanes fun n => (toB16 (lane t.vval.bits n)).2 ||| (toB16 (lane (e.pv 14 0).bits n)).2)

/-- cvf (R136): 128 elements of t from 128 * c[0]. -/
def opCvf : Op := Op.plain fun e t s => do
  let h := (e.ps 14 2).val.getLsbD 0
  checkUses [useS (e.ps 14 2) 2, useV t.vval 4 [3]]
  let el := fun n => (lane t.vval.bits (n / 2)).extractLsb' (16 * (n % 2)) 16
  return s.lands e.c e.k 14 6 (some (vv (ofLanes fun l => ofB16 (el (l + if h then 128 else 0))) tF32)) none 0

/-- cvsb and cvub (R137). -/
def cvInt (uns : Bool) : Op := Op.plain fun e t s => do
  checkUses ([useS (e.ps 14 1) 1] ++ vqScales e ++ [useV t.vval 4 [tF32]])
  vqContainers e
  let r := fun n => toSmall uns (vqMode (e.ps 14 1).val) (vqRandom e n) (scaleOf (e.pv 14 3).bits (n / 32)) (lane t.vval.bits n)
  return s.lands e.c e.k 14 6 (some (vv (packed fun n => ((r n).1 % 256).toNat) (if uns then 5 else 4)))
    (some (countLanes fun i => blockCount i fun n => (r n).2.2)) (orFlags allLanes fun n => (r n).2.1)

/-- cvsb (R137). -/
def opCvsb : Op := cvInt false
/-- cvub (R137). -/
def opCvub : Op := cvInt true

/-- The lowest course with the expert resident in a (R138). -/
def fretCourse (a : Lanes) (x : Lane) : Option Nat :=
  (List.range 4).find? fun c => (lane a c).getLsbD 16 && (lane a c).extractLsb' 0 16 == x.extractLsb' 0 16

/-- The fret word of a row (R138). -/
def fretWord (m : Mask) (a t : Lanes) (l : Nat) : Lane :=
  let x := lane t l
  if !m.getLsbD l || x.msb || 65536 ≤ x.toNat then 0
  else
    match fretCourse a x with
    | some c => BitVec.ofNat 32 (2 ^ 18 + c * 65536 + x.toNat)
    | none => 0

/-- fret (R138). -/
def opFret : Op := Op.plain fun e t s => do
  let m := e.y.regs.top
  checkUses [{ useAny (e.pv 14 0) 0 with lanes := 15 }, { useV t.vval 4 [tI32] with lanes := m }]
  let w := fun l => fretWord m (e.pv 14 0).bits t.vval.bits l
  let n := fun c => (List.range 128).countP fun l => (w l).getLsbD 18 && ((w l).extractLsb' 16 2).toNat == c
  let miss := (List.range 128).countP fun l => m.getLsbD l && !(lane t.vval.bits l).msb && w l == 0
  return s.lands e.c e.k 14 6 (some (vv (ofLanes w) 7))
    (some (vv (ofLanes fun l => if l < 4 then BitVec.ofNat 32 (n l) else if l = 4 then BitVec.ofNat 32 miss else 0) tI32)) 0

/-- An i32 clamped (R136). -/
def clampInt (lo hi x : Int) : Int := max lo (min hi x)

/-- pack (R136). -/
def opPack : Op := Op.plain fun e t s => do
  checkUses [useS (e.ps 14 2) 2, useV t.vval 4 [tI32]]
  trapIf (vqFmt e != 4 && vqFmt e != 5) (trapTag (vqFmt e) 6)
  let cl := fun n => if vqFmt e = 4 then clampInt (-128) 127 (lane t.vval.bits n).toInt else clampInt 0 255 (lane t.vval.bits n).toInt
  return s.lands e.c e.k 14 6 (some (vv (packed fun n => (cl n % 256).toNat) (vqFmt e))) none 0

/-- unpk (R136): it reads c whatever t's tag; raw follows c[0]. -/
def opUnpk : Op := Op.plain fun e t s => do
  let x := t.vval
  checkUses [useS (e.ps 14 2) 2, useV x 4 [4, 5]]
  let sgn := x.tag == 4 || (x.tag == 0 && (e.ps 14 2).val.getLsbD 0)
  let el := fun n => BitVec.ofNat 8 (elem8 x.bits n)
  return s.lands e.c e.k 14 6
    (some (vv (ofLanes fun n => if sgn then (el n).signExtend 32 else (el n).zeroExtend 32) tI32)) none 0

/-- vtag (R136): a reserved tag traps; tag e9 checks the containers as a load does. -/
def opVtag : Op := Op.plain fun e t s => do
  checkUses [useS (e.ps 14 2) 2, useAny t.vval 4]
  trapIf (tagReserved (vqFmt e)) (trapTag (vqFmt e) 6)
  return s.lands e.c e.k 14 6
    (some (.v ⟨t.vval.bits, vqFmt e, 0, false, vqFmt e == 6 && badE9 t.vval.bits⟩)) none 0

end Sys2Proof.Machine
end

