-- ==== Sys2Proof/Machine/Matrix.lean ====
section
/-! DEFINITION. The unit mx (R145 to R150) and the beats of the array (R151 to R158), with the effects that land on array
state. -/

namespace Sys2Proof.Machine

/-! ### Codex fields (R144) -/

/-- Fields of a pipe's codex copy. -/
def Pipe.fmt (p : Pipe) : Tag := BitVec.ofNat 6 (field p.codex.toNat 0x01 1)
def Pipe.flagBits (p : Pipe) : Nat := field p.codex.toNat 0x02 2
def Pipe.uniform (p : Pipe) : Bool := p.flagBits.testBit 1
def Pipe.noFret (p : Pipe) : Bool := p.flagBits.testBit 2
def Pipe.fixedCourse (p : Pipe) : Nat := p.flagBits / 8 % 4
def Pipe.extent (p : Pipe) : Nat := field p.codex.toNat 0x04 2
def Pipe.scale (p : Pipe) : Nat := field p.codex.toNat 0x06 2
def Pipe.rows (p : Pipe) : Nat := field p.codex.toNat 0x08 4
def Pipe.bound (p : Pipe) : Nat := field p.codex.toNat 0x0C 4
def Pipe.scales (p : Pipe) : Nat := field p.codex.toNat 0x10 8
def Pipe.sstride (p : Pipe) : Int := signed32 (field p.codex.toNat 0x18 4)
def Pipe.fstride (p : Pipe) : Int := signed32 (field p.codex.toNat 0x1C 4)
def Pipe.frets (p : Pipe) : Nat := field p.codex.toNat 0x20 8

/-- The tag of b16. -/
def tB16 : Tag := 3

/-- Whether a codex is valid for a pipe (R145); pipe 4 is the push pipe. -/
def codexOk (p : Nat) (v : BitVec 512) : Bool :=
  let x : Pipe := { Pipe.zero with codex := v }
  let n := v.toNat
  let b16 := x.fmt == tB16
  field n 0x00 1 == 2 && decide (field n 0x01 1 < 64) && decide (x.flagBits < 32) && field n 0x28 24 == 0
    && isArrayFmt x.fmt
    && decide (1 ≤ x.extent ∧ x.extent ≤ (if p = 4 ∨ b16 then 128 else 256))
    && decide (1 ≤ x.rows ∧ x.bound ≤ x.rows)
    && (p != 4 || decide (x.rows ≤ if b16 then 128 else 256))
    && (!x.uniform || decide (x.scale < 512))

/-- Pipe `p` of an array; 4 is the push pipe. -/
def Arr.pipe (a : Arr) (p : Nat) : Pipe := mget a.pipes Pipe.zero p
/-- The array as the bundle finds it (R152). -/
def Env.arr (e : Env) : Arr := (e.s.core e.c).arr
/-- Replaces a core's array. -/
def State.setArr (s : State) (c : Nat) (a : Arr) : State := s.setCore c { s.core c with arr := a }

/-- The feed pipe a[1:0]. -/
def mxPipe (e : Env) : Nat := (e.ps 20 0).val.toNat % 4

/-! ### mx -/

/-- An mx operation that reads t and perhaps a, and schedules an effect on array state at +`lat` (R146). -/
def mxOp (readsA : Bool) (lat : Nat) (check : Env → LVal → Except Trap Unit) (ev : Env → LVal → Ev) : Op :=
  Op.plain fun e t s => do
    checkUses ((if readsA then [useS (e.ps 20 0) 0] else []) ++ [useS t.sval 4])
    check e t
    return s.pend e.c e.k 0 false lat 0 (ev e t)

/-- No check. -/
def noCheck : Env → LVal → Except Trap Unit := fun _ _ => .ok ()

/-- fbase (R146). -/
def opFbase : Op := mxOp true 2 noCheck fun e t => .pipe (mxPipe e) 0 t.sval.val
/-- fstr (R146). -/
def opFstr : Op := mxOp true 2 noCheck fun e t => .pipe (mxPipe e) 1 t.sval.val
/-- fprog (R146). -/
def opFprog : Op :=
  mxOp true 2
    (fun e t => trapIf (!(e.arr.pipe (mxPipe e)).cv || decide ((e.arr.pipe (mxPipe e)).rows < t.sval.val.toNat))
      (trapCodex t.sval.val (mxPipe e)))
    fun e t => .pipe (mxPipe e) 2 t.sval.val
/-- pbase (R146). -/
def opPbase : Op := mxOp false 2 noCheck fun _ t => .pipe 4 0 t.sval.val
/-- pstr (R146). -/
def opPstr : Op := mxOp false 2 noCheck fun _ t => .pipe 4 1 t.sval.val
/-- anch (R146). -/
def opAnch : Op := mxOp false 2 noCheck fun _ t => .anchor (t.sval.val.extractLsb' 0 10)

/-- fcdx (R145). The codex-bound of a pipe number above 4, which has no slot or count, names 0 as its row slot (DESIGN CHOICE, log 56). -/
def opFcdx : Op :=
  Op.mem (fun _ t => [⟨t.sval.val.toNat, 64, false, true⟩]) fun e t s => do
    checkUses [useS (e.ps 20 0) 0, useS t.sval 4]
    let p := (e.ps 20 0).val.toNat % 8
    trapIf (decide (p > 4)) (trapCodex 0 p)
    let blk ← e.block t.sval.val 64 64
    let ok := codexOk p (BitVec.ofNat 512 blk)
    let s := s.pend e.c e.k 0 false 8 0 (.codex p (BitVec.ofNat 512 blk) ok)
    return s.lands e.c e.k 20 8 none (some (raw (if ok then 0 else 1))) 0

/-- live (R147). -/
def opLive : Op := Op.plain fun e t s => do
  checkUses [useS (e.ps 20 0) 0, useS t.sval 4]
  let p := mxPipe e
  let x := e.arr.pipe p
  let n := t.sval.val
  trapIf (!x.cv) (trapCodex n p)
  let put := fun (s : State) (v : Nat) (y : Nat) =>
    (s.pend e.c e.k 0 false 2 0 (.pipe p 3 (BitVec.ofNat 64 v))).lands e.c e.k 20 2 none (some (raw (BitVec.ofNat 64 y))) 0
  if n.toNat ≤ x.bound then return put s n.toNat 0
  else if x.flagBits.testBit 0 then return put (s.setDefer e.y.launch) x.bound (n.toNat - x.bound)
  else .error (trapCodex n p)

/-- resid (R148). -/
def opResid : Op := Op.plain fun e t s => do
  checkUses [useS (e.ps 20 0) 0, useS (e.ps 20 1) 1, useS t.sval 4]
  let tag := (e.ps 20 1).val.extractLsb' 0 6
  trapIf (t.sval.val.getLsbD 16 && !isArrayFmt tag) (trapTag tag 1)
  return s.pend e.c e.k 0 false 2 0 (.resid (mxPipe e) (tag ++ t.sval.val.extractLsb' 0 17))

/-- Column entries of entry `n` of the sum file. -/
def Arr.sum (a : Arr) (n : Nat) : List Entry := mget a.sums (List.replicate 128 Entry.zero) n
/-- The accumulators of cell row `k` of a course. -/
def Arr.acc (a : Arr) (c k : Nat) : List Entry := mget a.accs (List.replicate 128 Entry.zero) (256 * c + k)
/-- The weights of cell row `k` of a course. -/
def Arr.row (a : Arr) (c k : Nat) : List Dy := mget a.weights (List.replicate 128 ⟨false, 0, 0⟩) (256 * c + k)

/-- Lanes of a function of the columns' entries. -/
def entryLanes (es : List Entry) (f : Entry → Lane) : Lanes := ofLanes fun n => f (es.getD n Entry.zero)

/-- sfst (R150). -/
def opSfst : Op := Op.plain fun e t s => do
  checkUses [useS t.sval 4]
  let es := e.arr.sum (t.sval.val.toNat % 64)
  let z := entryLanes es fun x =>
    (BitVec.ofBool x.wov).zeroExtend 32 ||| ((BitVec.ofBool x.nan).zeroExtend 32 <<< 1) ||| (x.rho.zeroExtend 32 <<< 8)
  return s.lands e.c e.k 20 6 (some (vv z 0)) (some (raw (BitVec.ofNat 64 (es.countP fun x => x.wov || x.nan)))) 0

/-- Whether an event is the landing of a push, feed, gfeed, clr or gclr (R149). -/
def Ev.arrayBeat : Ev → Bool
  | .pushRow .. | .feedSum .. | .gfeedSum .. | .clrSum _ | .clrAcc _ => true
  | _ => false

/-- Whether an event is the landing of a beat, a drain or gdrain among them, which alone land mx.z without mx.y (R156, R157). -/
def Ev.beat : Ev → Bool
  | .land 20 (some _) none _ => true
  | ev => ev.arrayBeat

/-- Whether a beat that loads, adds to or clears array state is in flight on a core (R149). A no-op beat has nothing to land and is not in
flight (DEDUCED, log 11). -/
def State.arrayBeats (s : State) (c : Nat) : Bool := s.agenda.any fun p => p.core == c && p.ev.arrayBeat

/-- Whether a beat of a core is in flight (R213). -/
def State.beatsInFlight (s : State) (c : Nat) : Bool := s.agenda.any fun p => p.core == c && p.ev.beat

/-- Whether a beat of a context is in flight (R216). -/
def State.ownBeats (s : State) (c k : Nat) : Bool := s.agenda.any fun p => p.core == c && p.ctx == k && p.ev.beat

/-- gmode (R149): the mode changes at issue, y lands the old one. -/
def opGmode : Op :=
  { acc := fun _ _ => []
    hold := fun e _ s => if s.arrayBeats e.c then some s else none
    run := fun e t s => do
      checkUses [useS t.sval 4]
      trapIf e.y.region.isOpen trapRegion
      let a := (s.core e.c).arr
      let m := t.sval.val.getLsbD 0
      let b := if m = a.grad then a else { a with grad := m, weights := [], accs := [] }
      return (s.setArr e.c b).lands e.c e.k 20 2 none (some (raw ((BitVec.ofBool a.grad).zeroExtend 64))) 0 }

/-- The status item of mxst (R150). -/
def Arr.item (a : Arr) (k : Nat) : BitVec 64 :=
  if k < 5 then (a.pipe k).progress.zeroExtend 64
  else if k < 9 then (a.pipe (k - 5)).live.zeroExtend 64
  else if k = 9 then a.anchor.signExtend 64
  else if k = 10 then (BitVec.ofBool a.grad).zeroExtend 64
  else if k < 15 then (mget a.resid 0 (k - 11)).zeroExtend 64
  else BitVec.ofNat 64 ((List.range 5).foldl (fun n i => n + if (a.pipe i).cv then 2 ^ i else 0) 0)

/-- mxst (R150): the item as it stands at +2 (log 46). -/
def opMxst : Op := Op.plain fun e t s => do
  checkUses [useS t.sval 4]
  return s.pend e.c e.k 0 false 2 0 (.mxst (t.sval.val.toNat % 16))

/-! ### Beat reads -/

/-- A read that a beat makes: address, bytes and alignment (R152). -/
structure BRead where
  va : BitVec 64
  len : Nat
  align : Nat
  deriving DecidableEq, Repr

/-- A place of a beat's read: level, first and last physical address. -/
abbrev BPlace := Nat × Nat × Nat

/-- The little-endian number that a beat reads. -/
def Env.beatN (e : Env) (r : BRead) (p : BPlace) : Nat :=
  wordAt (fun i => e.s.viewByte e.c e.k p.1 (byteAt r.va.toNat r.len p.2.1 p.2.2 i)) 0 r.len

/-- The address of the first poisoned part that a read touches. -/
def Env.beatPoison (e : Env) (r : BRead) (p : BPlace) : Option (BitVec 64) :=
  ((List.range r.len).find? fun i => e.s.viewPoison e.c e.k p.1 (byteAt r.va.toNat r.len p.2.1 p.2.2 i)).map
    fun i => BitVec.ofNat 64 ((r.va.toNat + i) / 16 * 16)

/-- The checks and places of a list of reads, in order. -/
def Env.beatReads (e : Env) (rs : List BRead) : Except Trap (List (BRead × BPlace)) :=
  rs.mapM fun r => do
    let p ← e.access r.va r.len r.align true false
    return (r, p)

/-- The trap of a poisoned part among the reads (R152, R281). -/
def Env.beatPoisonCheck (e : Env) (rs : List (BRead × BPlace)) : Except Trap Unit :=
  match rs.findSome? fun x => e.beatPoison x.1 x.2 with
  | some a => .error (trapOf 0x0E a (poisonWord 0 5 false))
  | none => .ok ()

/-- Lr (R152): the largest Lg + 2 when a read lies in the gallery, and 8 when all lie in the carrel; no rule gives it for reads of the
stacks with none of the gallery, where it is free (log 11). -/
def Env.beatLat (e : Env) (rs : List (BRead × BPlace)) : Nat :=
  if rs.any fun x => x.2.1 == 2 then (e.s.core e.c).lgMax + 2
  else if rs.any fun x => x.2.1 == 3 then Config.freeNat e.s.free else 8

/-- A beat lands `lat` cycles from now; the gallery and stacks reads of a free context's beat travel best-effort (R174). -/
def Env.beatPend (e : Env) (s : State) (rs : List (BRead × BPlace)) (lat : Nat) (ev : Ev) : State :=
  let (x, s) := e.extra s (if rs.any fun x => x.2.1 != 1 then 2 else 1)
  s.pend e.c e.k 0 false lat x ev

/-- An address at a signed distance. -/
def offsetOf (base : Nat) (d : Int) : BitVec 64 := BitVec.ofInt 64 (base + d)

/-- The bytes of an element of a format. -/
def elemBytes (fmt : Tag) : Nat := if fmt = tB16 then 2 else 1

/-- The read of a pipe's row slot `r` (R153, R154). -/
def Pipe.rowRead (p : Pipe) (r : Nat) : BRead :=
  ⟨offsetOf p.base.toNat (r * p.stride.toInt), p.extent * elemBytes p.fmt, elemBytes p.fmt⟩

/-- The read of the scale containers of a fed row, the 8 of scale entry `j`, whatever the extent (log 47); none when the scale is
uniform. -/
def Pipe.scaleRead (p : Pipe) (j : Nat) : List BRead :=
  if p.uniform then [] else [⟨offsetOf p.scales (j * p.sstride), 16, 2⟩]

/-- A format-tag mismatch of a beat read (R272). -/
def trapBeatTag (tag : Tag) : Trap := trapTag tag 5

/-- Element `k` of a row. -/
def rowElem (fmt : Tag) (row k : Nat) : FV := elemValue fmt (field row (elemBytes fmt * k) (elemBytes fmt))

/-- Whether a scale container of the read has a bit of 15:9 set (R102, R152). -/
def badContainers (n v : Nat) : Bool := (List.range n).any fun i => decide (field v (2 * i) 2 ≥ 512)

/-- The scaled elements of a row below its extent: element `k` times the scale of its block. Of the 256 rows that R109 sums, those from the
extent on give no term, not even to absd and cmps, as R110 lists the cells that contribute (DEDUCED, log 47). -/
def rowValues (p : Pipe) (row scales : Nat) : List Dy :=
  (List.range p.extent).map fun k =>
    scaled (rowElem p.fmt row k) (if p.uniform then p.scale else field scales (2 * (k / 32)) 2)

/-! ### Beats -/

/-- A beat (R152): the reads it makes, for the waits of R18; the mode it needs, `none` for both; and its effect. -/
structure Beat where
  acc : Env → List Acc
  mode : Option Bool
  run : Env → State → Except Trap State

/-- The reads as accesses. -/
def accOf (rs : List BRead) : List Acc := rs.map fun r => ⟨r.va.toNat, r.len, false, true⟩

/-- Bank accesses of a beat's reads (R83). -/
def touchReads (e : Env) (s : State) (rs : List (BRead × BPlace)) : State :=
  rs.foldl (fun s x => (s.touchBank e.y.timed x.2.1 x.2.2.1).touchBank e.y.timed x.2.1 x.2.2.2) s

/-- A pipe's progress steps by one (R153, R154). -/
def stepPipe (e : Env) (s : State) (p : Nat) : State :=
  let a := (s.core e.c).arr
  let x := a.pipe p
  s.setArr e.c { a with pipes := mput a.pipes p { x with progress := x.progress + 1 } }

/-- The codex-bound fault of a pipe at its row slot. -/
def slotCheck (x : Pipe) (p : Nat) : Except Trap Unit :=
  trapIf (!x.cv || decide (x.rows ≤ x.progress.toNat)) (trapCodex (x.progress.zeroExtend 64) p)

/-- The scale read of a push into course row `j` (R153): container n, for every column n, of entry j div 32. -/
def pushScale (x : Pipe) (j : Nat) : List BRead :=
  if x.uniform then [] else [⟨offsetOf x.scales ((j / 32 : Nat) * x.sstride), 256, 2⟩]

/-- The weights of a pushed row (R153): element n times the scale of container n, 0 beyond the extent. -/
def pushValues (x : Pipe) (row sc : Nat) : List Dy :=
  (List.range 128).map fun n =>
    if n < x.extent then scaled (rowElem x.fmt row n) (if x.uniform then x.scale else field sc (2 * n) 2) else ⟨false, 0, 0⟩

/-- A push into course `c` at row operand `row` (R153). -/
def beatPush (c row : Nat) : Beat :=
  { acc := fun e =>
      let x := e.arr.pipe 4
      let j := row + x.progress.toNat
      if !x.cv || decide (x.rows ≤ x.progress.toNat) || decide (j > if x.fmt == tB16 then 127 else 255) then []
      else accOf (x.rowRead x.progress.toNat :: pushScale x j)
    mode := some false
    run := fun e s => do
      let x := e.arr.pipe 4
      trapIf e.y.region.isOpen trapRegion
      slotCheck x 4
      let q := x.progress.toNat
      let j := row + q
      let b16 := x.fmt == tB16
      trapIf (decide (j > if b16 then 127 else 255)) (trapCodex (x.progress.zeroExtend 64) 4)
      let rs ← e.beatReads (x.rowRead q :: pushScale x j)
      let nums := rs.map fun r => e.beatN r.1 r.2
      let row' := nums.headD 0
      let sc := (nums.drop 1).headD 0
      trapIf (x.fmt != (mget e.arr.resid 0 c).extractLsb' 17 6) (trapBeatTag x.fmt)
      trapIf (!x.uniform && badContainers 128 sc) (trapBeatTag 6)
      e.beatPoisonCheck rs
      let vals := pushValues x row' sc
      let s := stepPipe e (touchReads e s rs) 4
      return e.beatPend s rs (e.beatLat rs - 4) (.pushRow c j b16 vals) }

/-- The fret of a feed (R154): its word's read when there is a plane. -/
def fretRead (x : Pipe) : List BRead :=
  if x.noFret then [] else [⟨offsetOf x.frets (x.progress.toNat * x.fstride), 4, 4⟩]

/-- What a feed does with its row: a no-op; or the course it uses, the expert its fret names and whether there is a plane. -/
structure FeedRow where
  course : Nat
  expert : BitVec 16
  plane : Bool
  deriving DecidableEq, Repr

/-- The row of a feed from its fret word (R154). -/
def feedRow (x : Pipe) (fret : Nat) : Option FeedRow :=
  let f : Nat := if x.noFret then 2 ^ 18 + x.fixedCourse * 65536 else fret
  if f.testBit 18 then some ⟨f / 65536 % 4, BitVec.ofNat 16 f, !x.noFret⟩ else none

/-- The expert that a feed's fret word carries: the one that Callote has injected for its bundle, where there is a fret word (R194). -/
def fretExpert (e : Env) (r : FeedRow) : BitVec 16 :=
  match e.s.out.tagMiss.find? fun t => t.1 == e.c && t.2.1 == e.k && t.2.2.1 == e.idx with
  | some t => if r.plane then t.2.2.2 else r.expert
  | none => r.expert

/-- The tag-miss of a feed, when its course does not hold the expert of its fret (R154, R158). -/
def tagMiss (e : Env) (x : Pipe) (p : Nat) (r : FeedRow) : Except Trap Unit :=
  let rec' := mget e.arr.resid 0 r.course
  let valid := rec'.getLsbD 16
  let ex := fretExpert e r
  trapIf (!valid || (r.plane && rec'.extractLsb' 0 16 != ex))
    (trapOf 0x04 (x.progress.zeroExtend 64)
      (ex ++ rec'.extractLsb' 0 16 ++ BitVec.ofBool (!valid) ++ 0#11 ++ BitVec.ofNat 2 r.course ++ BitVec.ofNat 2 p ++ 0#16))

/-- The cell row that meets element `k` of a row (R154, R157). -/
def cellRow (fmt : Tag) (k : Nat) : Nat := if fmt = tB16 then 2 * k else k

/-- The terms of a feed in one column (R109, R110, R112). -/
def columnTerm (op : Nat) (a : Int) (pairs : List (Dy × Dy)) : ColTerm :=
  let ts := pairs.map fun p => term op p.1 p.2 a
  { sum := (ts.map fun t => t.1).sum
    max := (ts.map fun t => t.1).foldl (fun m x => if m < x then x else m) (-(2 ^ 47))
    wov := ts.any fun t => t.2.1, nan := ts.any fun t => t.2.2
    res := (ts.map fun t => res255 t.1).sum % 255 }

/-- The anchor as an integer. -/
def Arr.A (a : Arr) : Int := a.anchor.toInt

/-- The columns of a feed of scaled elements `xs` against course `c` (R109), of the rows below the extent (log 47). -/
def feedColumns (a : Arr) (op c : Nat) (fmt : Tag) (xs : List Dy) : List ColTerm :=
  let rows := xs.zipIdx.map fun x => (x.1, a.row c (cellRow fmt x.2))
  (List.range 128).map fun n => columnTerm op a.A (rows.map fun r => (r.1, r.2.getD n ⟨false, 0, 0⟩))

/-- Whether the fret word of a feed, as it stands, makes its row a no-op (R154). -/
def fretNoop (e : Env) (x : Pipe) : Bool :=
  (fretRead x).any fun r =>
    match e.place r.va.toNat with
    | some (lvl, pa) => (feedRow x (e.s.viewN e.c e.k lvl pa 4)).isNone
    | none => true

/-- The reads of a feed: its fret word, then its row and scales unless the row is a no-op, which reads neither (R152, R154). -/
def feedReads (e : Env) (p : Nat) : List BRead :=
  let x := e.arr.pipe p
  if !x.cv || x.rows ≤ x.progress.toNat || x.live.toNat ≤ x.progress.toNat then []
  else if fretNoop e x then fretRead x
  else fretRead x ++ (x.rowRead x.progress.toNat :: x.scaleRead x.progress.toNat)

/-- The row slot of a feed or gfeed: its checks up to the fret word, the fret's reads, and its row unless it is a no-op. -/
def feedHead (e : Env) (p : Nat) : Except Trap (Pipe × List (BRead × BPlace) × Option FeedRow) := do
  let x := e.arr.pipe p
  slotCheck x p
  if x.live.toNat ≤ x.progress.toNat then return (x, [], none)
  else
    let rs ← e.beatReads (fretRead x)
    return (x, rs, feedRow x ((rs.map fun r => e.beatN r.1 r.2).headD 0))

/-- A feed through pipe `p` into entry `n` with a cell-op (R154). -/
def beatFeed (op p n : Nat) (accumulate : Bool) : Beat :=
  { acc := fun e => accOf (feedReads e p)
    mode := some false
    run := fun e s => do
      let (x, fr, row) ← feedHead e p
      match row with
      | none =>
        e.beatPoisonCheck fr
        return stepPipe e (touchReads e s fr) p
      | some r =>
        let r1 := x.progress.toNat
        let rs ← e.beatReads (x.rowRead r1 :: x.scaleRead r1)
        let nums := rs.map fun q => e.beatN q.1 q.2
        let sc := (nums.drop 1).headD 0
        let tag := (mget e.arr.resid 0 r.course).extractLsb' 17 6
        trapIf ((x.fmt == tB16) != (tag == tB16)) (trapBeatTag x.fmt)
        trapIf (!x.uniform && badContainers 8 sc) (trapBeatTag 6)
        tagMiss e x p r
        e.beatPoisonCheck (fr ++ rs)
        let cols := feedColumns e.arr op r.course x.fmt (rowValues x (nums.headD 0) sc)
        let s := stepPipe e (touchReads e s (fr ++ rs)) p
        return e.beatPend s (fr ++ rs) (256 + e.beatLat (fr ++ rs)) (.feedSum n op accumulate cols) }

/-- The reads of a gfeed, unless a pipe's slot is out of bounds: those of its feed pipe, and dy's row and scales unless it is a no-op (R152,
R157). -/
def gfeedReads (e : Env) (p : Nat) : List BRead :=
  let x := e.arr.pipe p
  let y := e.arr.pipe 4
  if !y.cv || decide (y.rows ≤ y.progress.toNat) then []
  else if !x.cv || decide (x.rows ≤ x.progress.toNat) || decide (x.live.toNat ≤ x.progress.toNat) || fretNoop e x then feedReads e p
  else feedReads e p ++ (y.rowRead y.progress.toNat :: y.scaleRead y.progress.toNat)

/-- gfeed (R157). A no-op gfeed checks no more than its fret word: whether x and dy agree in their formats is checked with the rows
(DEDUCED, log 11). Where the slots of both pipes fail, the trap names the feed pipe's (DESIGN CHOICE, log 56). -/
def beatGfeed (p : Nat) : Beat :=
  { acc := fun e => accOf (gfeedReads e p)
    mode := some true
    run := fun e s => do
      let y := e.arr.pipe 4
      slotCheck (e.arr.pipe p) p
      slotCheck y 4
      let (x, fr, row) ← feedHead e p
      match row with
      | none =>
        e.beatPoisonCheck fr
        return stepPipe e (stepPipe e (touchReads e s fr) p) 4
      | some r =>
        let xr ← e.beatReads (x.rowRead x.progress.toNat :: x.scaleRead x.progress.toNat)
        let yr ← e.beatReads (y.rowRead y.progress.toNat :: y.scaleRead y.progress.toNat)
        let xn := xr.map fun q => e.beatN q.1 q.2
        let yn := yr.map fun q => e.beatN q.1 q.2
        let xs := (xn.drop 1).headD 0
        let ys := (yn.drop 1).headD 0
        let tag := (mget e.arr.resid 0 r.course).extractLsb' 17 6
        trapIf ((x.fmt == tB16) != (tag == tB16)) (trapBeatTag x.fmt)
        trapIf ((y.fmt == tB16) != (tag == tB16)) (trapBeatTag y.fmt)
        trapIf ((!x.uniform && badContainers 8 xs) || (!y.uniform && badContainers 8 ys)) (trapBeatTag 6)
        tagMiss e x p r
        e.beatPoisonCheck (fr ++ xr ++ yr)
        let s := stepPipe e (stepPipe e (touchReads e s (fr ++ xr ++ yr)) p) 4
        return e.beatPend s (fr ++ xr ++ yr) (256 + e.beatLat (fr ++ xr ++ yr))
          (.gfeedSum r.course (x.fmt == tB16) e.arr.anchor (rowValues x (xn.headD 0) xs) (rowValues y (yn.headD 0) ys)) }

/-- Whether Callote has made the residue comparison of this bundle fail (R194). -/
def residueInjected (e : Env) : Bool := e.s.out.residue.contains (e.c, e.k, e.idx)

/-- The residue check of the columns of an entry or accumulator row (R112, R156): the first failing column. -/
def residueColumn (e : Env) (es : List Entry) : Option Nat :=
  if residueInjected e then some 0 else (es.zipIdx.find? fun x => residueFails x.1).map Prod.snd

/-- The trap of a detected data error: residue-detected outside a region, and the marker of a rollback inside one (R217). -/
def residueTrap (w1 : BitVec 64) (col entry : Nat) (g : Bool) (course : Nat) : Trap :=
  trapOf 0x11 w1 (BitVec.ofNat 64 (col + 256 * entry + (if g then 16384 else 0) + 65536 * course))

/-- The conversion of a row of entries lands in mx.z at +6, and the flags of all columns go to the context (R156, R157). -/
def drainLands (e : Env) (s : State) (es : List Entry) : State :=
  let z := entryLanes es fun x => (convertEntry x e.arr.A).1
  let fl := es.foldl (fun f x => f ||| (convertEntry x e.arr.A).2) 0
  s.lands e.c e.k 20 6 (some (vv z tF32)) none fl

/-- drain (R156). -/
def beatDrain (n : Nat) : Beat :=
  { acc := fun _ => [], mode := none
    run := fun e s => do
      let es := e.arr.sum n
      match residueColumn e es with
      | some col => .error (residueTrap 0 col n false 0)
      | none => return drainLands e s es }

/-- gdrain (R157). -/
def beatGdrain (c k : Nat) : Beat :=
  { acc := fun _ => [], mode := some true
    run := fun e s => do
      let es := e.arr.acc c k
      match residueColumn e es with
      | some col => .error (residueTrap (BitVec.ofNat 64 k) col 0 true c)
      | none => return drainLands e s es }

/-- clr (R156). -/
def beatClr (n : Nat) : Beat :=
  { acc := fun _ => [], mode := none, run := fun e s => .ok (s.pend e.c e.k 0 false 264 0 (.clrSum n)) }

/-- gclr (R157). -/
def beatGclr (c : Nat) : Beat :=
  { acc := fun _ => [], mode := some true, run := fun e s => .ok (s.pend e.c e.k 0 false 264 0 (.clrAcc c)) }

/-! ### Landings on array state -/

/-- An entry takes the terms of a feed (R109, R110, R112). -/
def Entry.take (x : Entry) (op : Nat) (accumulate : Bool) (t : ColTerm) : Entry :=
  let b := if accumulate then x else Entry.zero
  if op = 2 then
    let base : Int := if accumulate then x.value.toInt else -(2 ^ 47)
    if t.max ≤ base then
      { b with value := BitVec.ofInt 48 base, wov := b.wov || t.wov, nan := b.nan || t.nan
               rho := if accumulate then x.rho else BitVec.ofNat 8 (res255 base) }
    else { value := BitVec.ofInt 48 t.max, wov := b.wov || t.wov, nan := b.nan || t.nan, rho := BitVec.ofNat 8 (res255 t.max) }
  else
    let v := sat48 (b.value.toInt + t.sum)
    { value := BitVec.ofInt 48 v.1, wov := b.wov || t.wov || v.2, nan := b.nan || t.nan
      rho := BitVec.ofNat 8 ((b.rho.toNat + t.res) % 255) }

/-- The array after a feed lands (R154). -/
def Arr.feed (a : Arr) (n op : Nat) (accumulate : Bool) (cols : List ColTerm) : Arr :=
  { a with sums := mput a.sums n ((a.sum n).zip cols |>.map fun x => x.1.take op accumulate x.2) }

/-- One accumulator takes a product (R157). -/
def Entry.product (x : Entry) (w d : Dy) (a : Int) : Entry :=
  let t := term 0 w d a
  let v := sat48 (x.value.toInt + t.1)
  { value := BitVec.ofInt 48 v.1, wov := x.wov || t.2.1 || v.2, nan := x.nan || t.2.2
    rho := BitVec.ofNat 8 ((x.rho.toNat + res255 t.1) % 255) }

/-- The array after a gfeed lands (R157): every cell (k, n) within both extents takes its product. -/
def Arr.gfeed (a : Arr) (c : Nat) (b16 : Bool) (anchor : BitVec 10) (xs ys : List Dy) : Arr :=
  xs.zipIdx.foldl (fun a x =>
    let k := cellRow (if b16 then tB16 else 0) x.2
    let row := (a.acc c k).zipIdx.map fun q =>
      match ys[q.2]? with
      | some d => q.1.product x.1 d anchor.toInt
      | none => q.1
    { a with accs := mput a.accs (256 * c + k) row }) a

/-- The array after a push lands (R153): a b16 row occupies two cell rows, of which no rule gives the second's weights a value
of another format: those are free (log 11). -/
def Arr.push (a : Arr) (c j : Nat) (b16 : Bool) (row : List Dy) (free : Nat) : Arr :=
  if b16 then
    let other := (List.range 128).map fun n => (⟨false, Config.freeNat (free + n), 0⟩ : Dy)
    { a with weights := mput (mput a.weights (256 * c + 2 * j) row) (256 * c + 2 * j + 1) other }
  else { a with weights := mput a.weights (256 * c + j) row }

/-- Replaces one field of a pipe, with the old value that y lands (R146); field 3 is the live count, which lands no old
value. -/
def Arr.setPipe (a : Arr) (p f : Nat) (v : BitVec 64) : Arr × Option (BitVec 64) :=
  let x := a.pipe p
  let put := fun (y : Pipe) => { a with pipes := mput a.pipes p y }
  match f with
  | 0 => (put { x with base := v, progress := 0 }, some x.base)
  | 1 => (put { x with stride := v }, some x.stride)
  | 2 => (put { x with progress := v.extractLsb' 0 32 }, some (x.progress.zeroExtend 64))
  | _ => (put { x with live := v.extractLsb' 0 32 }, none)

end Sys2Proof.Machine
end

