-- ==== Sys2Proof/Machine/Exchange.lean ====
section
/-! DEFINITION. The exchange unit xu (R76 to R82) and claims (R183, R184). -/

namespace Sys2Proof.Machine

/-- The operations of xu in flight of a core that R80 counts. -/
def State.xuCount (s : State) (c : Nat) : Nat :=
  s.agenda.countP fun p => p.core == c && match p.ev with | .xch .. | .vac _ | .setm .. => true | _ => false

/-- The number of exchanges, vac and setm of a context in flight (R82). -/
def State.xuOwn (s : State) (c k : Nat) : Nat :=
  s.agenda.countP fun p => p.core == c && p.ctx == k && match p.ev with | .xch .. | .vac _ | .setm .. => true | _ => false

/-- The exchanges of a context in flight, which the end of its task waits for (R20). -/
def State.xchOwn (s : State) (c k : Nat) : Nat := s.agenda.countP fun p => p.core == c && p.ctx == k && p.ev.isXch

/-- The core of an exchange of another context that names a range (R77, R78). -/
def State.exchanger (s : State) (c k lvl pa len : Nat) : Option Nat :=
  (s.agenda.find? fun p => !(p.core == c && p.ctx == k) && p.ev.isXch && p.ev.places.any fun q => locHits q.1 q.2 lvl c pa len).map
    Pending.core

/-- Whether an exchange of another context names a range (R77). -/
def State.underExchange (s : State) (c k lvl pa len : Nat) : Bool := (s.exchanger c k lvl pa len).isSome

/-- The claim-conflict fault of a range under another context's exchange, with the core that exchanges it (R78, R272). -/
def exchangeFree (e : Env) (s : State) (lvl pa len : Nat) (a : BitVec 64) : Except Trap Unit :=
  match s.exchanger e.c e.k lvl pa len with
  | some core => .error (trapClaim a core)
  | none => .ok ()

/-- A claim of a gallery folio for a core, made for a launch (R183). -/
def claimFolio (cl : SMap Claim) (folio core : Nat) (l : BitVec 64) : SMap Claim :=
  let x := mget cl ⟨core, []⟩ folio
  mput cl folio ⟨core, if x.launches.contains l then x.launches else x.launches ++ [l]⟩

/-- Entries in ascending task identifier. -/
def insertEntry (x : BitVec 64 × PbEntry) : List (BitVec 64 × PbEntry) → List (BitVec 64 × PbEntry)
  | [] => [x]
  | y :: t => if x.2.task.toNat < y.2.task.toNat then x :: y :: t else y :: insertEntry x t

/-- Sorts entries by task. -/
def sortEntries (xs : List (BitVec 64 × PbEntry)) : List (BitVec 64 × PbEntry) := xs.foldl (fun acc x => insertEntry x acc) []

/-- The bytes an entry writes. -/
def PbEntry.cells (x : PbEntry) : List (Nat × Byte) :=
  ((List.range 16).filter fun i => x.mask.getLsbD i).map fun i => (x.pa + i, x.data.extractLsb' (8 * i) 8)
/-- The poison an entry writes (R70). -/
def PbEntry.pois (x : PbEntry) : List (Nat × Bool) :=
  if x.poison then [(x.pa / 16, true)] else if x.mask = 0xFFFF#16 then [(x.pa / 16, false)] else []

/-- At a claiming operation's issue, the entries of the core's phase buffers in the claimed folio are applied to the slot in
ascending task identifier, leave their buffers, and contribute to their launches' digests (R181, R184). -/
def flushFolio (e : Env) (s : State) (folio : Nat) : State :=
  let inF := fun (x : PbEntry) => x.pa / 16384 == folio
  let all := sortEntries ((List.range 4).flatMap fun k =>
    let y := s.ctx e.c k
    ((y.closed ++ y.pbuf).filter inF).map fun x => (y.pbufLaunch, x))
  match all with
  | [] => s
  | _ =>
    let s := (List.range 4).foldl (fun s k =>
      let y := s.ctx e.c k
      s.setCtx e.c k { y with pbuf := y.pbuf.filter fun x => !inF x, closed := y.closed.filter fun x => !inF x }) s
    let s := s.pend e.c e.k 2 true 0 0 (.write (all.flatMap fun x => x.2.cells) (all.flatMap fun x => x.2.pois) none)
    let ls := (all.map Prod.fst).dedup
    ls.foldl (fun s l =>
      let parts := ((all.filter fun x => x.1 == l).map fun x => (x.2.va, x.2.pa)).dedup
      s.pend e.c e.k 2 true 0 0 (.write [] [] (some (l, parts)))) s

/-- The claiming operation claims the folio of a gallery place and applies the core's own entries (R183, R184). -/
def claimPlace (e : Env) (s : State) (lvl pa : Nat) : State :=
  if lvl = 2 then flushFolio e { s with claims := claimFolio s.claims (pa / 16384) e.c e.y.launch } (pa / 16384) else s

/-- The mark of a place now (R70). -/
def State.markAt (s : State) (l : Loc) : BitVec 32 := (s.mem.level l.lvl l.core).mark l.pa

/-- The latency of an exchange (R77), `none` when the pair of levels has no entry. -/
def xchLat (e : Env) (leaf : Bool) (a b : Loc) : Option Nat :=
  let row := fun (l : Loc) => (e.s.core e.c).row (e.s.slice l.pa)
  let lx := fun (l : Loc) => if leaf then (row l).lx else (row l).fx
  let st := e.s.stackLat e.y.timed (if leaf then 512 else 1024)
  match a.lvl, b.lvl with
  | 1, 1 => some (if leaf then 12 else 36)
  | 1, 2 => some (lx b)
  | 2, 1 => some (lx a)
  | 2, 2 => some (max (lx a) (lx b) + 16)
  | 2, 3 => some st
  | 3, 2 => some st
  | _, _ => none

/-- The mark check of a checked exchange (R77). -/
def markCheck (s : State) (l : Loc) (va : BitVec 64) (want : BitVec 32) : Except Trap Unit :=
  trapIf (s.markAt l != want) (trapOf 0x0B va (s.markAt l ++ want))

/-- The parts of two leaves that an exchange inside a region logs; a folio exchange does not fit the log (R215). -/
def xchUndo (e : Env) (s : State) (leaf : Bool) (a b : Loc) : Except Trap State :=
  if !e.y.region.isOpen then .ok s
  else if !leaf then .error trapRegion
  else undoParts e s (((List.range 16).map fun i => a.pa / 16 + i) ++ (List.range 16).map fun i => b.pa / 16 + i)

/-- A seventeenth operation of xu waits (R80). -/
def xuHold (e : Env) (_ : LVal) (s : State) : Option State := if e.s.xuCount e.c ≥ 16 then some s else none

/-- The four exchanges (R77). -/
def xchOp (leaf checked : Bool) : Op :=
  let n := if leaf then 256 else 16384
  { acc := fun e t => [⟨(e.ps 16 0).val.toNat, n, false, true⟩, ⟨t.sval.val.toNat, n, false, true⟩]
    hold := xuHold
    run := fun e t s => do
      let pv := (e.ps 16 0).val
      let qv := t.sval.val
      checkUses ([useS (e.ps 16 0) 0] ++ (if checked then [useS (e.ps 16 1) 1, useS (e.ps 16 2) 2] else []) ++ [useS t.sval 4])
      let (lp, pp, _) ← e.reach pv n n true true
      let (lq, pq, _) ← e.reach qv n n true true
      let a : Loc := ⟨lp, e.c, pv.toNat, pp⟩
      let b : Loc := ⟨lq, e.c, qv.toNat, pq⟩
      match xchLat e leaf a b with
      | none => .error (trapXlat pv 8)
      | some lat =>
        exchangeFree e s lp pp n pv
        e.claimFree lp pp n pv
        exchangeFree e s lq pq n qv
        e.claimFree lq pq n qv
        if checked then
          markCheck s a pv ((e.ps 16 1).val.extractLsb' 0 32)
          markCheck s b qv ((e.ps 16 2).val.extractLsb' 0 32)
        let s ← xchUndo e s leaf a b
        let s := claimPlace e (claimPlace e s lp pp) lq pq
        let s := (s.touchBank e.y.timed lp pp).touchBank e.y.timed lq pq
        let (x, s) := e.extra s (max lp lq)
        return s.pend e.c e.k lp true lat x (.xch leaf a b) }

/-- xch (R77). -/
def opXch : Op := xchOp false false
/-- xchc (R77). -/
def opXchc : Op := xchOp false true
/-- xchl (R77). -/
def opXchl : Op := xchOp true false
/-- xchlc (R77). -/
def opXchlc : Op := xchOp true true

/-- The checks of mark, vac and setm on the folio at t (R82). -/
def folioReach (e : Env) (t : LVal) (s : State) (rd wr : Bool) : Except Trap Loc := do
  let va := t.sval.val
  let (lvl, pa, _) ← e.reach va 16384 16384 rd wr
  exchangeFree e s lvl pa 16384 va
  e.claimFree lvl pa 16384 va
  return ⟨lvl, e.c, va.toNat, pa⟩

/-- The access of mark, vac and setm: the folio at t. -/
def folioAcc (_ : Env) (t : LVal) : List Acc := [⟨t.sval.val.toNat, 16384, false, true⟩]

/-- Whether an operation of a list, which runs from the newest to the oldest, writes to a folio of a level; a cas does so when it will find
its word equal (R72). -/
def writesFolio (lvl folio : Nat) (base : Nat → Byte) : List Pending → Bool
  | [] => false
  | p :: rest =>
    writesFolio lvl folio base rest ||
      match p.ev with
      | .write cells _ _ => p.lvl == lvl && cells.any fun c => c.1 / 16384 == folio
      | .cas w b _ => lvl == 1 && w / 16384 == folio && BitVec.ofNat 64 (wordAt (ownByte rest lvl base) w 8) == b
      | _ => false

/-- The blank flag of a folio as a context finds it (R19, R89, R178): none of its own stores there is in flight or in its phase buffer. -/
def Env.blank (e : Env) (l : Loc) : Bool :=
  let y := e.s.ctx e.c e.k
  e.s.blankAt l && !(writesFolio l.lvl (l.pa / 16384) (fun a => e.s.levelByte l.lvl e.c a) (e.s.flight e.c e.k)) &&
    !(l.lvl == 2 && (y.closed ++ y.pbuf).any fun x => x.task == y.taskId && x.pa / 16384 == l.pa / 16384)

/-- mark (R82). -/
def opMark : Op :=
  Op.mem folioAcc fun e t s => do
    checkUses [useS t.sval 4]
    let l ← folioReach e t s true true
    let x := e.s.mem.level l.lvl e.c
    let (d, s) := e.extra (s.touchBank e.y.timed l.lvl l.pa) l.lvl
    return s.pend e.c e.k l.lvl false (e.lat l.lvl l.pa) d
      (.land 16 (some (raw ((x.mark l.pa).zeroExtend 64))) (some (raw (if e.blank l then 1 else 0))) 0)

/-- vac (R82): the folio becomes blank; inside a region its 1,024 parts do not fit the log (R215). -/
def opVac : Op :=
  { acc := folioAcc, hold := xuHold
    run := fun e t s => do
      checkUses [useS t.sval 4]
      let l ← folioReach e t s true true
      trapIf e.y.region.isOpen trapRegion
      let s := claimPlace e s l.lvl l.pa
      let (d, s) := e.extra (s.touchBank e.y.timed l.lvl l.pa) l.lvl
      return s.pend e.c e.k l.lvl true (e.lat l.lvl l.pa) d (.vac l) }

/-- The undo log records a folio's mark and blank flag (R215). -/
def undoMark (e : Env) (s : State) (l : Loc) : Except Trap State :=
  let y := s.ctx e.c e.k
  if !y.region.isOpen then .ok s
  else
    let f := l.pa / 16384
    let x := s.mem.level 1 e.c
    let undo := if y.region.undo.any fun u => match u with | .mark g .. => g == f | _ => false then y.region.undo
      else y.region.undo ++ [.mark f (x.mark l.pa) (!x.blank l.pa)]
    if undo.length > 512 then .error trapRegion
    else .ok (s.setCtx e.c e.k { y with region := { y.region with undo := undo } })

/-- setm (R82): only a folio marked 0xFFFF_FFFF takes a new mark. -/
def opSetm : Op :=
  { acc := folioAcc, hold := xuHold
    run := fun e t s => do
      checkUses [useS (e.ps 16 0) 0, useS t.sval 4]
      let l ← folioReach e t s true true
      let m := (e.ps 16 0).val.extractLsb' 0 32
      trapIf (s.markAt l != 0xFFFFFFFF#32 || m == 0xFFFFFFFF#32) (trapOf 0x0B t.sval.val (s.markAt l ++ m))
      let s ← undoMark e s l
      let s := claimPlace e s l.lvl l.pa
      let (d, s) := e.extra (s.touchBank e.y.timed l.lvl l.pa) l.lvl
      return s.pend e.c e.k l.lvl true (e.lat l.lvl l.pa) d (.setm l m) }

/-- xst (R82): the counts as at +2; it has no operands (R76). -/
def opXst : Op := Op.plain fun e _ s => return s.pend e.c e.k 0 false 2 0 .xst

end Sys2Proof.Machine
end

