-- ==== Sys2Proof/Machine/Net.lean ====
section
/-! DEFINITION. The network unit nu (R185 to R188, R204, R205), routers and the one-way latency (R167, R168), arrival counters
and broadcast (R189 to R191). -/

namespace Sys2Proof.Machine

/-! ### Routers (R167, R168) -/

/-- Row and column of the core router of a logical core (R167). -/
def coreRouter (c : Nat) : Nat × Nat :=
  let r := c % 128 / 16
  (4 * (c / 256) + r / 2, 4 * (c / 128 % 2) + 2 * (r % 2) + r / 2 % 2)

/-- Row and column of the slice router of a slice (R167). -/
def sliceRouter (sl : Nat) : Nat × Nat :=
  let r := sl % 16 / 2
  (4 * (sl / 32) + r / 2, 4 * (sl / 16 % 2) + 3 - 2 * (r % 2) - r / 2 % 2)

/-- A hop between two indices of a row or a column (R168): 0 with none, else 3 + w. -/
def hopLat (i j : Nat) : Nat :=
  if i = j then 0 else 3 + min (i - j + (j - i)) 3 + (if i / 4 = j / 4 then 0 else 12)

/-- The one-way latency ow between two routers (R168). -/
def oneWay (p q : Nat × Nat) : Nat := 4 + hopLat p.2 q.2 + hopLat p.1 q.1

/-- The quad of a core on its router (R167). -/
def coreQuad (c : Nat) : Nat := c % 16 / 4

/-- The local port of a slice on its router (R167). -/
def slicePort (sl : Nat) : Nat := sl % 2

/-- What an output port of a router leads to (R167, R171): a router of its row, by column; one of its column, by row; a quad of a core
router; a slice of a slice router. -/
inductive OutPort where
  | row (column : Nat)
  | column (row : Nat)
  | quad (i : Nat)
  | slice (i : Nat)
  deriving DecidableEq, Repr

/-- The output ports of router 8 * row + column, numbered (log 43): 0 to 7 along its row, 8 to 15 along its column, 16 up its local ports;
none where there is no such port. -/
def outPort (router port : Nat) : Option OutPort :=
  let r := router / 8
  let c := router % 8
  if port < 8 then (if port = c then none else some (.row port))
  else if port < 16 then (if port - 8 = r then none else some (.column (port - 8)))
  else if (r + c) % 2 = 0 then (if port < 20 then some (.quad (port - 16)) else none)
  else if port < 18 then some (.slice (port - 16)) else none

/-- The network that an operation in flight travels on (R169): the bulk network for exchanges, vac, setm, engine commands and broadcast
deliveries, else the load-store network. -/
def Ev.bulk : Ev → Bool
  | .xch .. | .vac _ | .setm .. | .engAcquire _ | .bcast .. => true
  | _ => false

/-! ### Triggers that no region allows -/

/-- A trigger of nu or eu: a region violation inside an open region (R214). -/
def impure (o : Op) : Op :=
  { o with run := fun e t s => do trapIf e.y.region.isOpen trapRegion; o.run e t s }

/-! ### Slice reductions (R185 to R187) -/

/-- The bytes of a reduction target: a word 32, a cell 64 (R185). -/
def targetLen (cell : Bool) : Nat := if cell then 64 else 32

/-- The checks of a reduction target (R186): in the gallery, aligned, with its rights, not claimed by another core. -/
def targetReach (e : Env) (va : BitVec 64) (cell rd wr : Bool) : Except Trap Nat := do
  trapIf (lvlOf va.toNat != some 2) (trapXlat va 0)
  let (_, pa, _) ← e.access va (targetLen cell) (targetLen cell) rd wr
  return pa

/-- The access of a reduction, for the page walk. -/
def targetAcc (va : BitVec 64) (cell wr : Bool) : List Acc := [⟨va.toNat, targetLen cell, wr, false⟩]

/-- A reduction acts at its slice at issue + Lg, with the launch's phase number at issue (R186). -/
def sendRedux (e : Env) (s : State) (code : Nat) (x : BitVec 64) (va : BitVec 64) (pa : Nat) : State :=
  let (d, s) := e.extra (s.touchBank e.y.timed 2 pa) 2
  s.pend e.c e.k 2 true (e.lat 2 pa) d (.redux code x ⟨2, e.c, va.toNat, pa⟩ (s.launch e.y.launch).phase e.y.launch)

/-- A reduction of code `code`; its target is a cell for rfadd, else a word (R186). -/
def reduxOp (code : Nat) (cell : Bool) : Op :=
  impure <| Op.mem (fun e _ => targetAcc (e.ps 18 0).val cell true) fun e t s => do
    checkUses [useS (e.ps 18 0) 0, useS t.sval 4]
    let pa ← targetReach e (e.ps 18 0).val cell false true
    return sendRedux e s code t.sval.val (e.ps 18 0).val pa

/-- radd (R186). -/
def opRadd : Op := reduxOp 0 false
/-- rmin (R186). -/
def opRmin : Op := reduxOp 1 false
/-- rmax (R186). -/
def opRmax : Op := reduxOp 2 false
/-- rand (R186). -/
def opRand : Op := reduxOp 3 false
/-- ror (R186). -/
def opRor : Op := reduxOp 4 false
/-- rxor (R186). -/
def opRxor : Op := reduxOp 5 false
/-- rfadd (R186). -/
def opRfadd : Op := reduxOp 6 true

/-- A reduction target's contents (R185): its two values, their flags, and its stamp. -/
structure Target where
  v0 : Int
  v1 : Int
  f0 : BitVec 8
  f1 : BitVec 8
  phase : Nat
  launch : Nat
  deriving DecidableEq, Repr

/-- The target that a block of bytes holds (R185). -/
def Target.read (cell : Bool) (blk : Nat) : Target :=
  if cell then
    { v0 := (BitVec.ofNat 192 blk).toInt, v1 := (BitVec.ofNat 192 (field blk 0x18 24)).toInt
      f0 := BitVec.ofNat 8 (field blk 0x30 1), f1 := BitVec.ofNat 8 (field blk 0x31 1)
      phase := field blk 0x34 4, launch := field blk 0x38 4 }
  else
    { v0 := (BitVec.ofNat 64 blk).toInt, v1 := (BitVec.ofNat 64 (field blk 8 8)).toInt, f0 := 0, f1 := 0
      phase := field blk 0x10 4, launch := field blk 0x14 4 }

/-- The cells of a target at `pa` (R185): a word's values mod 2^64, a cell's in 160 bits sign-extended to 192. -/
def Target.cells (cell : Bool) (x : Target) (pa : Nat) : List (Nat × Byte) :=
  if cell then
    let c := fun (v : Int) => ((BitVec.ofInt 160 v).signExtend 192).toNat
    cellsOf pa 24 (c x.v0) ++ cellsOf (pa + 0x18) 24 (c x.v1) ++ cellsOf (pa + 0x30) 4 (x.f0.toNat + 256 * x.f1.toNat)
      ++ cellsOf (pa + 0x34) 4 x.phase ++ cellsOf (pa + 0x38) 8 x.launch
  else
    let c := fun (v : Int) => (BitVec.ofInt 64 v).toNat
    cellsOf pa 8 (c x.v0) ++ cellsOf (pa + 8) 8 (c x.v1) ++ cellsOf (pa + 0x10) 4 x.phase ++ cellsOf (pa + 0x14) 12 x.launch

/-- Value and flags of the half `i` of a target. -/
def Target.half (x : Target) (i : Nat) : Int × BitVec 8 := if i % 2 = 0 then (x.v0, x.f0) else (x.v1, x.f1)
/-- Replaces a half. -/
def Target.setHalf (x : Target) (i : Nat) (v : Int × BitVec 8) : Target :=
  if i % 2 = 0 then { x with v0 := v.1, f0 := v.2 } else { x with v1 := v.1, f1 := v.2 }

/-- Whether a target counts as current in phase `e` of a launch (R185). -/
def Target.current (x : Target) (e : BitVec 32) (l : BitVec 64) : Bool := x.phase == e.toNat && x.launch == l.toNat % 2 ^ 32

/-- The first-touch rule of R186. -/
def Target.touch (x : Target) (e : BitVec 32) (l : BitVec 64) : Target :=
  if x.current e l then x
  else
    let latest := x.half x.phase
    { v0 := latest.1, v1 := latest.1, f0 := latest.2, f1 := latest.2, phase := e.toNat, launch := l.toNat % 2 ^ 32 }

/-- The operation of a reduction, or 0 of a clear (code 8), on a value and its flags (R186, R187). -/
def redValue (code : Nat) (x : BitVec 64) (v : Int × BitVec 8) : Int × BitVec 8 :=
  let w := BitVec.ofInt 64 v.1
  match code with
  | 0 => ((w + x).toInt, 0)
  | 1 => (min v.1 x.toInt, 0)
  | 2 => (max v.1 x.toInt, 0)
  | 3 => ((w &&& x).toInt, 0)
  | 4 => ((w ||| x).toInt, 0)
  | 5 => ((w ^^^ x).toInt, 0)
  | 6 => cellAdd v.1 v.2 (x.extractLsb' 0 32)
  | _ => (0, 0)

/-- A reduction or clear applied at the slice (R186, R187). -/
def Target.apply (t : Target) (code : Nat) (x : BitVec 64) (e : BitVec 32) (l : BitVec 64) : Target :=
  let t := t.touch e l
  t.setHalf (e.toNat % 2) (redValue code x (t.half (e.toNat % 2)))

/-- The phase-start value and flags that rrd returns (R187). -/
def Target.start (t : Target) (e : BitVec 32) (l : BitVec 64) : Int × BitVec 8 :=
  if t.current e l then t.half (e.toNat + 1) else t.half t.phase

/-- The kind k := c[1:0] of rrd and rclr (R187). -/
def nuKind (e : Env) : Nat := (e.ps 18 2).val.toNat % 4

/-- rrd (R187): the value as it stands at issue (R178), landing at +Lg. -/
def opRrd : Op :=
  impure <| Op.mem (fun e t => targetAcc t.sval.val (nuKind e != 0) false) fun e t s => do
    checkUses [useS (e.ps 18 2) 2, useS t.sval 4]
    let cell := nuKind e != 0
    let pa ← targetReach e t.sval.val cell true false
    let x := (Target.read cell (e.s.viewN e.c e.k 2 pa (targetLen cell))).start (s.launch e.y.launch).phase e.y.launch
    let bad := (List.range (targetLen cell / 16)).any fun i => e.s.viewPoison e.c e.k 2 (pa + 16 * i)
    let (d, s) := e.extra (s.touchBank e.y.timed 2 pa) 2
    let y := fun (w : BitVec 64) => some (LVal.s ⟨w, 0, bad⟩)
    let ev : Ev :=
      match nuKind e with
      | 0 => .land 18 none (y (BitVec.ofInt 64 x.1)) 0
      | 1 => .land 18 none (y ((cellF32 x.1 x.2).1.zeroExtend 64)) (cellF32 x.1 x.2).2
      | _ =>
        let r := cellRaw x.1 x.2
        let z := ofLanes fun l => if l < 4 then r.extractLsb' (32 * l) 32 else if l = 4 then x.2.zeroExtend 32 else 0
        .land 18 (some (.v ⟨z, 0, if bad then 0x1F else 0, false, false⟩)) (y (x.2.zeroExtend 64)) 0
    return s.pend e.c e.k 2 false (e.lat 2 pa) d ev

/-- rclr (R187). -/
def opRclr : Op :=
  impure <| Op.mem (fun e t => targetAcc t.sval.val (nuKind e != 0) true) fun e t s => do
    checkUses [useS (e.ps 18 2) 2, useS t.sval 4]
    let pa ← targetReach e t.sval.val (nuKind e != 0) false true
    return sendRedux e s 8 (BitVec.ofNat 64 (nuKind e)) t.sval.val pa

/-! ### Dratrix (R204, R205) -/

/-- The checks of send and recv: no free context, a port bound to this core, no region (R204). -/
def portCheck (e : Env) : Except Trap Unit := do
  let a := (e.ps 18 0).val
  let p := a.toNat % 64
  trapIf (!e.y.timed) (trapIllegal (BitVec.twoPow 11 e.slot))
  trapIf (decide (p > 47) || (e.s.port p).bound.isNone || (e.s.port p).core.toNat != e.c) (trapXlat a 6)
  trapIf e.y.region.isOpen trapRegion

/-- One bit of the CRC-32 of IEEE 802.3, lowest bit first. -/
def crcBit (c : BitVec 32) : BitVec 32 := if c.getLsbD 0 then (c >>> 1) ^^^ 0xEDB88320#32 else c >>> 1

/-- The CRC-32 of IEEE 802.3 over bytes. -/
def crc32 (bs : List Byte) : BitVec 32 :=
  ~~~(bs.foldl (fun c b => (List.range 8).foldl (fun c _ => crcBit c) (c ^^^ b.zeroExtend 32)) (BitVec.allOnes 32))

/-- The bytes that a frame's check covers (R203): bytes 0x00 to 0x0B of the header, and the payload. -/
def frameCovered (f : Frame) : List Byte :=
  let le := fun (n w : Nat) => (List.range n).map fun i => BitVec.ofNat 8 (w / 256 ^ i)
  le 4 f.number.toNat ++ le 2 f.live.toNat ++ le 2 (f.core.toNat + if f.sent then 2 ^ 15 else 0) ++ le 4 f.poison.toNat ++
    le 512 f.payload.toNat

/-- Whether a frame's check holds (R203). -/
def frameGood (f : Frame) : Bool := f.check == crc32 (frameCovered f)

/-- A frame with its check (R203). -/
def frameSealed (f : Frame) : Frame := { f with check := crc32 (frameCovered f) }

/-- The poison of a value's parts, bit i for part i (R203). -/
def partPoison (m : Mask) : BitVec 32 :=
  BitVec.ofNat 32 (((List.range 32).filter fun i => m.extractLsb' (4 * i) 4 != 0).foldl (fun n i => n + 2 ^ i) 0)

/-- send (R204): the frame is formed with its check. -/
def opSend : Op := Op.plain fun e _ s => do
  checkUses [useS (e.ps 18 0) 0, useS (e.ps 18 1) 1, { useAny (e.pv 18 3) 3 with lanes := 0 }]
  portCheck e
  let p := (e.ps 18 0).val.toNat % 64
  let c := e.s.pos e.y
  let x := s.port p
  if c % 16 ≠ 0 then return { s with ports := mput s.ports p { x with misplaced := satInc x.misplaced } }
  else
    let f : Frame :=
      { number := BitVec.ofNat 32 (c / 16), live := (e.ps 18 1).val.extractLsb' 0 16, core := BitVec.ofNat 9 e.c, sent := true,
        poison := partPoison (e.pv 18 3).poison, payload := (e.pv 18 3).bits, check := 0 }
    return { s with ports := mput s.ports p { x with sent := x.sent ++ [frameSealed f] } }

/-- The frame of a port that started at position `c` of a launch that began at `t0`, when a core sent it and it arrived
(R205). -/
def Port.frameAt (x : Port) (c : Int) (t0 : Nat) : Option Frame :=
  if c < (t0 : Int) then none else x.arrived.find? fun f => f.number == BitVec.ofInt 32 (c / 16)

/-- The lanes of the parts that a frame's poison word marks. -/
def framePoison (w : BitVec 32) : Mask := ofMask fun l => w.getLsbD (l / 4)

/-- recv (R205): the frame whose window holds this position; a frame whose check failed is void, without void marks. -/
def opRecv : Op := Op.plain fun e _ s => do
  checkUses [useS (e.ps 18 0) 0]
  portCheck e
  let p := (e.ps 18 0).val.toNat % 64
  let x := s.port p
  let c : Int := 16 * (((e.s.pos e.y : Int) - x.ld.toNat) / 16)
  let n := BitVec.ofInt 32 (c / 16)
  let voidY : BitVec 64 := n ++ 0x80000000#32
  let voidZ := fun (mark : Bool) => (⟨0, 0, allLanes, mark, false⟩ : VVal)
  let taken := fun (s : State) => s.pend e.c e.k 0 false 2 0 (.voidTaken p)
  match x.frameAt c (s.launch e.y.launch).t0 with
  | some f =>
    if f.sent && frameGood f then
      return s.lands e.c e.k 18 2 (some (.v ⟨f.payload, 0, framePoison f.poison, false, false⟩))
        (some (raw (n ++ (0#7 ++ f.core ++ f.live)))) 0
    else return taken (s.lands e.c e.k 18 2 (some (.v (voidZ (frameGood f)))) (some (raw voidY)) 0)
  | none => return taken (s.lands e.c e.k 18 2 (some (.v (voidZ true))) (some (raw voidY)) 0)

/-! ### Messages (R188) -/

/-- sendb (R188): a timed context's message arrives at issue + ow, a free one's best-effort. -/
def opSendb : Op :=
  impure <| Op.plain fun e t s => do
    checkUses [{ useAny (e.pv 18 3) 3 with lanes := 0xFFFF }, useS t.sval 4]
    let dst := t.sval.val.toNat % 512
    let m : Mail := { srcCtx := BitVec.ofNat 2 e.k, srcCore := BitVec.ofNat 9 e.c
                      data := (e.pv 18 3).bits.extractLsb' 0 512, arrived := 0 }
    let (d, s) := if e.y.timed then (0, s) else s.draw
    return s.pend e.c e.k 0 false (oneWay (coreRouter e.c) (coreRouter dst)) d
      (.msg dst (t.sval.val.extractLsb' 9 2).toNat m e.y.launch)

/-- recvb (R188): the oldest message that had arrived before this cycle. -/
def opRecvb : Op :=
  impure <| Op.plain fun e _ s => do
    let y := s.ctx e.c e.k
    match y.mailbox with
    | [] => return s.lands e.c e.k 18 2 (some (.v VVal.zero)) (some (raw 0)) 0
    | m :: rest =>
      if m.arrived = s.clock then return s.lands e.c e.k 18 2 (some (.v VVal.zero)) (some (raw 0)) 0
      else
        return (s.setCtx e.c e.k { y with mailbox := rest }).lands e.c e.k 18 2
          (some (.v ⟨m.data.zeroExtend 4096, 0, 0, false, false⟩))
          (some (raw ((1#1 ++ (0#5 ++ m.srcCtx ++ m.srcCore)).zeroExtend 64))) 0

/-! ### Arm and broadcast (R189 to R191) -/

/-- The 64-bit state of an arrival counter (R189). -/
def Arrival.word (x : Arrival) : BitVec 64 :=
  x.gen ++ x.recv ++ x.exp ++ x.first ++ x.count ++ x.base ++ 0#6 ++ BitVec.ofBool (x.recv == x.exp && x.exp != 0)
    ++ BitVec.ofBool x.armed

/-- Whether a counter is done (R189): recv = exp after an arm. -/
def Arrival.done (x : Arrival) : Bool := x.recv == x.exp && x.exp != 0

/-- The offset of the first field of an arm block that breaks R190. -/
def armBad (blk : Nat) : Option Nat :=
  let first := field blk 0 4
  let count := field blk 4 4
  let n := field blk 8 4
  if first > 63 then some 0
  else if count = 0 ∨ first + count > 64 then some 4
  else if n = 0 ∨ n % 16 ≠ 0 ∨ n > min (512 * count) 16384 then some 8
  else if field blk 14 2 ≠ 0 then some 12
  else none

/-- The access of a block that an operation reads from the carrel for its own use (R190, R191, R225). -/
def blockAcc (va : BitVec 64) (len : Nat) : List Acc := [⟨va.toNat, len, false, true⟩]

/-- arm (R190). -/
def opArm : Op :=
  impure <| Op.mem (fun e _ => blockAcc (e.ps 17 0).val 16) fun e t s => do
    checkUses [useS (e.ps 17 0) 0, useS t.sval 4]
    let a := (e.ps 17 0).val
    let blk ← e.block a 16 16
    match armBad blk with
    | some off => .error (trapParam a 6 off)
    | none =>
      let c : Arrival :=
        { gen := BitVec.ofNat 16 (field blk 12 2), recv := 0, exp := BitVec.ofNat 11 (field blk 8 4 / 16),
          first := BitVec.ofNat 6 (field blk 0 4), count := BitVec.ofNat 7 (field blk 4 4), base := e.y.regs.base,
          armed := true }
      return s.pend e.c e.k 0 false 8 0 (.arm (t.sval.val.toNat % 8) c)

/-- The offset of the first field of a bcst block that breaks R191. -/
def bcstBad (blk : Nat) : Option Nat :=
  let src := field blk 0 4
  let n := field blk 4 4
  if src % 16 ≠ 0 then some 0
  else if n = 0 ∨ n % 16 ≠ 0 ∨ n > 16384 then some 4
  else if src + n > 0x200000 then some 0
  else if field blk 8 4 &&& 0xFFFFF8FC ≠ 0 then some 8
  else if field blk 14 2 ≠ 0 then some 12
  else none

/-- The parts of a bcst are delivered to the cores of the mask, each at a free cycle within Fxmax + 32 (R166, R191). Returns the
latest latency: 1 where the mask names no core, so that the counter of an empty bcst advances then (DESIGN CHOICE, log 56). -/
def deliver (e : Env) (s : State) (mask : BitVec 512) (blk : Nat) : Nat × State :=
  let src := field blk 0 4
  let bound := (e.s.core e.c).fxMax + 32
  let parts := (List.range (field blk 4 4 / 16)).map fun i =>
    (i, BitVec.ofNat 128 (e.s.viewN e.c e.k 1 (src + 16 * i) 16), e.s.viewPoison e.c e.k 1 (src + 16 * i))
  ((List.range 512).filter fun m => mask.getLsbD m).foldl (fun acc m =>
    parts.foldl (fun (acc : Nat × State) p =>
      let lat := 1 + Config.freeNat acc.2.free % bound
      let ev := Ev.bcast m (field blk 8 4 % 4) (field blk 8 4 / 256 % 8) (BitVec.ofNat 16 (field blk 12 2)) p.1 p.2.1 p.2.2
        e.y.launch
      (max acc.1 lat, acc.2.pend e.c e.k 0 false lat 0 ev)) acc) (1, s)

/-- The accesses of a bcst (R191): its block, the peer mask, and the source that a block in the carrel names. -/
def bcstAcc (e : Env) : List Acc :=
  let a := (e.ps 17 0).val
  blockAcc a 16 ++ blockAcc (e.ps 17 2).val 64 ++
    (if a.toNat < 0x200000 then
      let blk := e.s.viewN e.c e.k 1 a.toNat 16
      if (bcstBad blk).isNone then [⟨field blk 0 4, field blk 4 4, false, true⟩] else []
    else [])

/-- bcst (R191). Bits of b that must be zero are checked before the block's fields (DESIGN CHOICE, log 56). -/
def opBcst : Op :=
  impure <| Op.mem (fun e _ => bcstAcc e) fun e _ s => do
    checkUses [useS (e.ps 17 0) 0, useS (e.ps 17 1) 1, useS (e.ps 17 2) 2]
    let a := (e.ps 17 0).val
    let blk ← e.block a 16 16
    let mask ← e.block (e.ps 17 2).val 64 64
    let fl := (e.ps 17 1).val
    trapIf (decide (fl.toNat ≥ 128)) (trapParam a 5 0xFF)
    match bcstBad blk with
    | some off => .error (trapParam a 5 off)
    | none =>
      let (last, s) := deliver e s (BitVec.ofNat 512 mask) blk
      if fl.getLsbD 1 then
        return s.pend e.c e.k 0 false last 0 (.bcastDone (fl.extractLsb' 4 3).toNat)
      else return s

end Sys2Proof.Machine
end

