-- ==== Sys2Proof/Machine/Engine.lean ====
section
/-! DEFINITION. The engines: issue of a command with the checks of its block (R225 to R227, R235 to R240), ecnt (R228), its acquire,
start, results and release (R223, R229 to R233), and the computations of sidx, sred, stopk, rpfx and rprm (R231, R235 to
R239). -/

namespace Sys2Proof.Machine

/-! ### Regions of a block -/

/-- A region that a block names (R225): its first address and bytes, whether the command reads and writes it, and whether the
gallery may hold it. -/
structure Reg where
  va : Nat
  len : Nat
  rd : Bool
  wr : Bool
  gallery : Bool
  inHbm : Bool
  deriving DecidableEq, Repr

/-- The stack that an address names, bits 38:36 (R224). -/
def stackOf (va : Nat) : Nat := va / 2 ^ 36 % 8

/-- Whether two regions overlap; an empty one overlaps nothing. -/
def overlap (a n b m : Nat) : Bool := decide (0 < n ∧ 0 < m ∧ a < b + m ∧ b < a + n)

/-- The home stack of a stack-engine command (R223): of the table, the output, or the logits. -/
def homeOf (code blk : Nat) : Option Nat :=
  match code with
  | 0 => some (stackOf (field blk 0x00 8))
  | 1 => some (stackOf (field blk 0x18 8))
  | 2 => some (stackOf (field blk 0x00 8))
  | _ => none

/-- The first element of a list of offsets whose condition holds. -/
def firstBad (l : List (Nat × Bool)) : Option Nat := (l.find? Prod.snd).map Prod.fst

/-- Whether a word is a multiple of 4 that is at least `lo`. -/
def badStride (x lo : Nat) : Bool := x % 4 != 0 || decide (x < lo)

/-- The flag address of a release: 8-byte aligned, in the carrel or in a stack (R233). -/
def flagBad (blk : Nat) : Bool :=
  let a := field blk 0x30 8
  a % 8 != 0 || (lvlOf a != some 1 && lvlOf a != some 3)

/-- The fields of a sidx block against R235, in ascending offset as in the blocks below: the first at fault is named (R272, log 24). -/
def sidxBad (blk : Nat) : List (Nat × Bool) :=
  let w := field blk 0x0C 2
  let n := field blk 0x0E 2
  let out := field blk 0x20 8
  let len := n * field blk 0x2C 4
  [(0x00, field blk 0x00 8 % 4 != 0), (0x08, field blk 0x08 4 == 0), (0x0C, w == 0 || decide (w > 4096)),
   (0x10, field blk 0x10 8 % 4 != 0), (0x18, field blk 0x18 8 % 4 != 0),
   (0x20, out % 4 != 0 || overlap out len (field blk 0x00 8) (field blk 0x08 4 * field blk 0x28 4)
            || overlap out len (field blk 0x10 8) (4 * (n + 1))),
   (0x28, badStride (field blk 0x28 4) (4 * w)), (0x2C, badStride (field blk 0x2C 4) (4 * w))]

/-- The regions of a sidx block (R235). -/
def sidxRegs (blk : Nat) : List Reg :=
  [⟨field blk 0x00 8, field blk 0x08 4 * field blk 0x28 4, true, false, false, true⟩,
   ⟨field blk 0x10 8, 4 * (field blk 0x0E 2 + 1), true, false, false, true⟩,
   ⟨field blk 0x20 8, field blk 0x0E 2 * field blk 0x2C 4, false, true, false, true⟩]

/-- Buffer `i` of a sred block. -/
def sredBuf (blk i : Nat) : Nat := field blk 0x00 8 + i * field blk 0x08 4

/-- The fields of a sred block against R236. -/
def sredBad (blk : Nat) : List (Nat × Bool) :=
  let n := field blk 0x0C 2
  let len := field blk 0x10 4
  let out := field blk 0x18 8
  [(0x00, field blk 0x00 8 % 4 != 0), (0x08, badStride (field blk 0x08 4) (if 2 ≤ n then 4 * len else 0)),
   (0x0C, n == 0 || decide (n > 16)), (0x0E, field blk 0x0E 2 != 0), (0x10, len == 0 || decide (len > 2 ^ 24)),
   (0x14, field blk 0x14 4 != 0),
   (0x18, out % 4 != 0 || (out != field blk 0x00 8 &&
            (List.range n).any fun i => overlap out (4 * len) (sredBuf blk i) (4 * len))),
   (0x20, field blk 0x20 16 != 0)]

/-- The regions of a sred block (R236). -/
def sredRegs (blk : Nat) : List Reg :=
  let len := 4 * field blk 0x10 4
  ((List.range (field blk 0x0C 2)).map fun i => ⟨sredBuf blk i, len, true, false, false, true⟩)
    ++ [⟨field blk 0x18 8, len, false, true, false, true⟩]

/-- Whether `n` bytes at `a` overlap one of `rows` rows of `len` bytes, `stride` apart from `base`. -/
def rowHit (a n base stride len rows : Nat) : Bool :=
  let r := if a < base + len then 0 else (a - base - len) / stride + 1
  decide (r < rows) && overlap a n (base + r * stride) len

/-- The fields of a stopk block against R237: no record may overlap a row of logits (log 24). -/
def stopkBad (blk : Nat) : List (Nat × Bool) :=
  let n := field blk 0x08 4
  let len := field blk 0x0C 2
  let k := field blk 0x0E 1
  let ls := field blk 0x10 4
  let os := field blk 0x14 4
  let out := field blk 0x18 8
  [(0x00, field blk 0x00 8 % 4 != 0), (0x0C, len == 0), (0x0E, k == 0 || decide (k > 8)), (0x0F, field blk 0x0F 1 != 0),
   (0x10, badStride ls (4 * len)), (0x14, os % 64 != 0 || decide (os < 64)),
   (0x18, out % 64 != 0 || (List.range n).any fun r => rowHit (out + r * os) 64 (field blk 0x00 8) ls (4 * len) n), (0x20, field blk 0x20 16 != 0)]

/-- The regions of a stopk block (R237). -/
def stopkRegs (blk : Nat) : List Reg :=
  [⟨field blk 0x00 8, field blk 0x08 4 * field blk 0x10 4, true, false, false, true⟩,
   ⟨field blk 0x18 8, field blk 0x08 4 * field blk 0x14 4, false, true, false, true⟩]

/-- The fields of an rpfx block against R238. -/
def rpfxBad (blk : Nat) : List (Nat × Bool) :=
  let n := field blk 0x08 4
  let h := field blk 0x00 8
  let off := field blk 0x10 8
  let ovf := field blk 0x18 8
  [(0x00, h % 4 != 0), (0x08, n == 0 || decide (n > 65536)),
   (0x10, off % 4 != 0 || overlap off (4 * (n + 1)) h (4 * n)),
   (0x18, ovf % 4 != 0 || overlap ovf (4 * (n + 1)) h (4 * n)), (0x20, field blk 0x20 16 != 0)]

/-- The regions of an rpfx block (R238). -/
def rpfxRegs (blk : Nat) : List Reg :=
  let n := field blk 0x08 4
  [⟨field blk 0x00 8, 4 * n, true, false, true, true⟩, ⟨field blk 0x10 8, 4 * (n + 1), false, true, true, true⟩,
   ⟨field blk 0x18 8, 4 * (n + 1), false, true, true, true⟩]

/-- The fields of an rprm block against R239. -/
def rprmBad (blk : Nat) : List (Nat × Bool) :=
  let n := field blk 0x08 4
  let w := field blk 0x0C 1
  let rows := field blk 0x00 8
  let size := 256 * w * n
  [(0x00, rows % 256 != 0), (0x08, n == 0 || decide (n > 2 ^ 20)), (0x0C, w == 0 || decide (w > 64)), (0x0D, field blk 0x0D 3 != 0),
   (0x10, overlap (field blk 0x10 8) (4 * n) rows size), (0x18, field blk 0x18 4 == 0 || decide (field blk 0x18 4 > 65536)),
   (0x20, field blk 0x20 8 % 16 != 0 || overlap (field blk 0x20 8) 16 rows size), (0x28, field blk 0x28 8 != 0)]

/-- The regions of an rprm block (R239). -/
def rprmRegs (blk : Nat) : List Reg :=
  let n := field blk 0x08 4
  [⟨field blk 0x00 8, 256 * field blk 0x0C 1 * n, true, true, true, false⟩, ⟨field blk 0x10 8, 4 * n, true, false, true, true⟩,
   ⟨field blk 0x20 8, 16, false, true, true, true⟩]

/-- The fields and regions of a command's block by its eu code. -/
def blockBad (code blk : Nat) : List (Nat × Bool) :=
  match code with
  | 0 => sidxBad blk | 1 => sredBad blk | 2 => stopkBad blk | 3 => rpfxBad blk | _ => rprmBad blk
def blockRegs (code blk : Nat) : List Reg :=
  match code with
  | 0 => sidxRegs blk | 1 => sredRegs blk | 2 => stopkRegs blk | 3 => rpfxRegs blk | _ => rprmRegs blk

/-- The pages of a region: the address of its first byte in each, and the bytes there. -/
def Reg.pages (g : Reg) : List (Nat × Nat) :=
  if g.len = 0 then []
  else
    let p := pageOf g.va
    (List.range (pageOf (g.va + g.len - 1) - p + 1)).map fun i =>
      let a := max g.va ((p + i) * 0x200000)
      (a, min (g.va + g.len) ((p + i + 1) * 0x200000) - a)

/-- The translation of one page of a region: a free context's miss has been walked (R225, R291). -/
def Env.enginePage (e : Env) (lvl va : Nat) : Xl :=
  match (e.s.core e.c).translate e.y lvl va with
  | .miss =>
    let t := e.s.pte (jobOf e.y.launch) (pageOf va)
    if pteOk t then .ok ((t.extractLsb' 21 27).toNat * 0x200000 + va % 0x200000) (t.getLsbD 62) (t.getLsbD 61) else .fault 4
  | x => x

/-- The check of a region: in a level that it may lie in and in the home stack, translated, readable and writable as needed,
free of other cores' claims (R225). -/
def regionCheck (e : Env) (home : Option Nat) (g : Reg) : Except Trap Unit := do
  if g.len = 0 then return ()
  else
    let a := BitVec.ofNat 64 g.va
    match lvlOf g.va with
    | none => .error (trapXlat a 0)
    | some lvl =>
      trapIf (!(lvl == 2 && g.gallery) && !(lvl == 3 && g.inHbm)) (trapXlat a 7)
      trapIf (lvlOf (g.va + g.len - 1) != some lvl) (trapXlat a 7)
      match home with
      | some h => trapIf (stackOf g.va != h || stackOf (g.va + g.len - 1) != h) (trapXlat a 7)
      | none => pure ()
      g.pages.forM fun p => do
        match e.enginePage lvl p.1 with
        | .ok pa r w =>
          trapIf ((g.rd && !r) || (g.wr && !w)) (trapXlat (BitVec.ofNat 64 p.1) 5)
          e.claimFree lvl pa p.2 (BitVec.ofNat 64 p.1)
        | .fault n => .error (trapXlat (BitVec.ofNat 64 p.1) n)
        | .miss => .error (trapXlat (BitVec.ofNat 64 p.1) 4)

/-- The gallery folios that a route-engine command writes are claimed, and the core's own entries there are applied (R240). -/
def claimRegion (e : Env) (s : State) (g : Reg) : State :=
  if lvlOf g.va ≠ some 2 ∨ !g.wr then s
  else
    g.pages.foldl (fun s p =>
      match e.enginePage 2 p.1 with
      | .ok pa _ _ => (List.range ((pa + p.2 - 1) / 16384 - pa / 16384 + 1)).foldl (fun s i =>
          claimPlace e s 2 ((pa / 16384 + i) * 16384)) s
      | _ => s) s

/-- The checks of a command at issue (R225), and its block. -/
def engineChecks (code : Nat) (e : Env) : Except Trap Nat := do
  checkUses [useS (e.ps 17 0) 0, useS (e.ps 17 1) 1]
  trapIf e.y.region.isOpen trapRegion
  let a := (e.ps 17 0).val
  let fl := (e.ps 17 1).val
  let blk ← e.block a 64 64
  trapIf (decide (fl.toNat ≥ 128)) (trapParam a code 0xFF)
  match firstBad (blockBad code blk ++ [(0x30, fl.getLsbD 1 && flagBad blk)]) with
  | some off => .error (trapParam a code off)
  | none =>
    (blockRegs code blk).forM (regionCheck e (homeOf code blk))
    if fl.getLsbD 1 && lvlOf (field blk 0x30 8) == some 3 then
      regionCheck e none ⟨field blk 0x30 8, 8, false, true, false, true⟩
    return blk

/-- The frames of the pages of a command's regions, as issue translates them, and whether they may be read (R225, R291, R292). -/
def engineFrames (e : Env) (code blk : Nat) (rel : Bool) : SMap (Nat × Bool) :=
  let flag : List Reg := if rel && lvlOf (field blk 0x30 8) == some 3 then [⟨field blk 0x30 8, 8, false, true, false, true⟩] else []
  (blockRegs code blk ++ flag).foldl (fun m g => g.pages.foldl (fun m p =>
    match e.enginePage ((lvlOf p.1).getD 1) p.1 with
    | .ok pa rd _ => mput m (pageOf p.1) (pa / 0x200000, rd)
    | _ => m) m) []

/-- The pages of a free context's regions that its core's translation cache lacks (R225). -/
def engineMissing (code : Nat) (e : Env) : List Nat :=
  match engineChecks code e with
  | .error _ => []
  | .ok blk =>
    ((blockRegs code blk).flatMap fun g => g.pages.filterMap fun p =>
      match (e.s.core e.c).translate e.y ((lvlOf p.1).getD 1) p.1 with
      | .miss => some (pageOf p.1)
      | _ => none).dedup

/-- An engine command (R225 to R227): held while eight are in flight, and for a walk of its pages of at most 256 cycles, which
reads their entries in the gallery (R83); then it travels to its engine. -/
def engineOp (code : Nat) : Op :=
  { acc := fun e _ => blockAcc (e.ps 17 0).val 64
    hold := fun e _ s =>
      if e.y.infl ≥ 8 then some s
      else
        match e.y.engWalk with
        | some t => if s.clock < t then some s else none
        | none =>
          let pages := engineMissing code e
          if e.y.timed || pages.isEmpty then none
          else
            let s := pages.foldl (fun s p => match s.pteAt (jobOf e.y.launch) p with | some a => s.agentTouch 2 a | none => s) s
            let (d, s) := s.draw
            some (s.setCtx e.c e.k { s.ctx e.c e.k with engWalk := some (s.clock + d % 257) })
    run := fun e _ s => do
      let blk ← engineChecks code e
      let s := if code ≥ 3 then (blockRegs code blk).foldl (claimRegion e) s else s
      let y := s.ctx e.c e.k
      let s := s.setCtx e.c e.k { y with infl := y.infl + 1 }
      let fl := (e.ps 17 1).val
      let c : Cmd :=
        { code := code, core := e.c, ctx := e.k, task := y.taskId, job := jobOf y.launch, launch := y.launch,
          block := BitVec.ofNat 512 blk, flags := fl.extractLsb' 0 7, id := s.free, releases := fl.getLsbD 1, done := false,
          snap := none, frames := engineFrames e code blk (fl.getLsbD 1), owner := (e.c, e.k) }
      return s.sends (s.clock + Config.freeNat s.free + (if y.timed then 0 else e.injected)) e.c e.k (.engAcquire c) }

/-- sidx (R235). -/
def opSidx : Op := engineOp 0
/-- sred (R236). -/
def opSred : Op := engineOp 1
/-- stopk (R237). -/
def opStopk : Op := engineOp 2
/-- rpfx (R238). -/
def opRpfx : Op := engineOp 3
/-- rprm (R239). -/
def opRprm : Op := engineOp 4

/-- ecnt (R228): the counter or status word as at +2. -/
def opEcnt : Op :=
  impure <| Op.plain fun e t s => do
    checkUses [useS t.sval 4]
    return s.pend e.c e.k 0 false 2 0 (.ecnt (t.sval.val.extractLsb' 0 4))

/-- The engine status word (R228). -/
def Ctx.engineWord (y : Ctx) : BitVec 64 := y.errs ++ y.errCode ++ y.errEng ++ 0#17 ++ y.infl

/-! ### The reads of a command -/

/-- The engine of a command: its home stack's, by code and stack, or the route engine. -/
def Cmd.engine (c : Cmd) : Nat :=
  match homeOf c.code c.block.toNat with
  | some h => 3 * h + c.code
  | none => 24

/-- The place of an address for an engine, its level and physical address: through the translation that issue made of its regions, or
through the job's page table for a computed address, which needs read permission (R225, R231, R291). -/
def State.engPlace (s : State) (c : Cmd) (va : Nat) : Option (Nat × Nat) :=
  match lvlOf va with
  | some 1 => some (1, va)
  | some lvl =>
    if mhas c.frames (pageOf va) then some (lvl, (mget c.frames (0, false) (pageOf va)).1 * 0x200000 + va % 0x200000)
    else
      let t := s.pte c.job (pageOf va)
      if pteOk t && t.getLsbD 62 then some (lvl, (t.extractLsb' 21 27).toNat * 0x200000 + va % 0x200000) else none
  | none => none

/-- Whether a part is read from the memories as the command became current (log 12). -/
def Cmd.readsSnap (c : Cmd) (pa : Nat) : Bool := Config.freeNat (c.id + pa / 16) % 2 == 0

/-- The memories that a part is read from: as the command became current, or as its results are formed; a free choice for each
part (R232, log 12). -/
def State.engView (s : State) (c : Cmd) (pa : Nat) : State :=
  match c.snap with
  | some m => if c.readsSnap pa then { s with mem := m, agenda := [] } else s
  | none => s

/-- A byte of an engine's read and whether its part is poisoned; a page that is gone reads as poisoned. A part that an exchange has swapped
is read where its contents now lie (R78); in the memories as the command became current the swaps stand. -/
def State.engByte (s : State) (c : Cmd) (va : Nat) : Byte × Bool :=
  match s.engPlace c va with
  | some (lvl, pa) =>
    let v := s.engView c pa
    let q := v.resolve 512 0 lvl c.core pa
    (v.levelByte q.1 q.2.1 q.2.2, v.levelPoison q.1 q.2.1 (q.2.2 / 16))
  | none => (0, true)

/-- A 32-bit word of an engine's read, on any address, and whether one of its parts is poisoned. -/
def State.eng32 (s : State) (c : Cmd) (va : Nat) : Lane × Bool :=
  let b := fun i => s.engByte c (va + i)
  ((b 3).1 ++ (b 2).1 ++ (b 1).1 ++ (b 0).1, (b 0).2 || (b 1).2 || (b 2).2 || (b 3).2)

/-- A result of an engine: its address, its bytes, and the error code that poisons it (R231), 0 for none. -/
structure Res where
  va : Nat
  bytes : List Byte
  bad : Nat
  deriving DecidableEq, Repr

/-- The bytes of 32-bit words. -/
def laneBytes4 (ls : List Lane) : List Byte := ls.flatMap fun x => (List.range 4).map fun i => x.extractLsb' (8 * i) 8

/-! ### sidx (R235) -/

/-- The check of a computed address (R231, R291): code 3 outside the home stack, code 2 untranslated or without read permission, else 0. -/
def computedBad (s : State) (c : Cmd) (va : Nat) : Nat :=
  if lvlOf va ≠ some 3 ∨ some (stackOf va) ≠ homeOf c.code c.block.toNat then 3
  else if (s.engPlace c va).isNone || (mhas c.frames (pageOf va) && !(mget c.frames (0, false) (pageOf va)).2) then 2 else 0

/-- Adds table row `i` to a row, or the code that poisons it. -/
def addRow (s : State) (c : Cmd) (row : List Lane) (i : Nat) : Except Nat (List Lane) :=
  let blk := c.block.toNat
  row.zipIdx.mapM fun x =>
    let w := s.eng32 c (field blk 0x00 8 + i * field blk 0x28 4 + 4 * x.2)
    if w.2 then .error 4 else .ok (fadd x.1 w.1).1

/-- Pools `n` indices of a bag from list position `j`, in list order (R235). -/
def poolRows (s : State) (c : Cmd) (row : List Lane) (j : Nat) : Nat → Except Nat (List Lane)
  | 0 => .ok row
  | n + 1 => do
    let blk := c.block.toNat
    let va := (field blk 0x18 8 + 4 * j) % 2 ^ 64
    let bad := computedBad s c va
    if bad ≠ 0 then .error bad
    else
      let i := s.eng32 c va
      if i.2 then .error 4
      else if i.1.toNat ≥ field blk 0x08 4 then .error 1
      else poolRows s c (← addRow s c row i.1.toNat) (j + 1) n

/-- The result row of bag `b`, or its error code. -/
def bagRow (s : State) (c : Cmd) (b : Nat) : Except Nat (List Lane) :=
  let blk := c.block.toNat
  let w := field blk 0x0C 2
  let o1 := s.eng32 c (field blk 0x10 8 + 4 * b)
  let o2 := s.eng32 c (field blk 0x10 8 + 4 * (b + 1))
  if o1.2 || o2.2 then .error 4
  else if o2.1.toNat ≤ o1.1.toNat then .ok (List.replicate w 0)
  else poolRows s c (List.replicate w 0x80000000#32) o1.1.toNat (o2.1.toNat - o1.1.toNat)

/-- A result of a value or an error code: `n` words at an address. -/
def resOf (va n : Nat) : Except Nat (List Lane) → Res
  | .ok ls => ⟨va, laneBytes4 ls, 0⟩
  | .error k => ⟨va, List.replicate (4 * n) 0, k⟩

/-- The result of bag `b` of a sidx. -/
def sidxBag (s : State) (c : Cmd) (b : Nat) : Res :=
  let blk := c.block.toNat
  resOf (field blk 0x20 8 + b * field blk 0x2C 4) (field blk 0x0C 2) (bagRow s c b)

/-! ### sred (R236) -/

/-- One level of the tree. -/
def pairSum : List Lane → List Lane
  | a :: b :: t => (fadd a b).1 :: pairSum t
  | l => l

/-- Applies a function `n` times. -/
def iter {α : Type} (f : α → α) : Nat → α → α
  | 0, x => x
  | n + 1, x => iter f n (f x)

/-- The smallest power of two that is at least 2 and at least `n`, as an exponent. -/
def treeLog (n : Nat) : Nat := if n ≤ 2 then 1 else (n - 1).log2 + 1

/-- The tree sum of the buffers' elements, padded with -0 (R236). -/
def treeSum (xs : List Lane) : Lane :=
  let k := treeLog xs.length
  (iter pairSum k (xs ++ List.replicate (2 ^ k - xs.length) 0x80000000#32)).headD 0

/-- The results of sred: each element is a result (R231, log 12). -/
def sredRun (s : State) (c : Cmd) : List Res :=
  let blk := c.block.toNat
  (List.range (field blk 0x10 4)).map fun i =>
    let xs := (List.range (field blk 0x0C 2)).map fun b => s.eng32 c (sredBuf blk b + 4 * i)
    resOf (field blk 0x18 8 + 4 * i) 1 (if xs.any Prod.snd then .error 4 else .ok [treeSum (xs.map Prod.fst)])

/-! ### stopk (R237) -/

/-- The rank key of a logit: NaNs below everything, then the numbers with -0 below +0 (R237). -/
def rankKey (x : Lane) : Int := if (f32 x).isNan then -(2 ^ 33) else ordKey x

/-- Inserts an entry behind the entries that rank at least as high, keeping `k`. -/
def rankInsert (k : Nat) (x : Nat × Lane) : List (Nat × Lane) → List (Nat × Lane)
  | [] => [x].take k
  | y :: t => (if rankKey y.2 < rankKey x.2 then x :: y :: t else y :: rankInsert (k - 1) x t).take k

/-- The record of a row of logits (R237). -/
def topRecord (k : Nat) (xs : List Lane) : List Lane :=
  let best := xs.zipIdx.foldl (fun acc x => rankInsert k (x.2, x.1) acc) []
  let pad := 8 - best.length
  (best.map fun b => BitVec.ofNat 32 b.1) ++ List.replicate pad 0xFFFFFFFF#32
    ++ (best.map fun b => if (f32 b.2).isNan then cNaN else b.2) ++ List.replicate pad cNaN

/-- The results of stopk. -/
def stopkRun (s : State) (c : Cmd) : List Res :=
  let blk := c.block.toNat
  (List.range (field blk 0x08 4)).map fun r =>
    let xs := (List.range (field blk 0x0C 2)).map fun i => s.eng32 c (field blk 0x00 8 + r * field blk 0x10 4 + 4 * i)
    resOf (field blk 0x18 8 + r * field blk 0x14 4) 16
      (if xs.any Prod.snd then .error 4 else .ok (topRecord (field blk 0x0E 1) (xs.map Prod.fst)))

/-! ### rpfx and rprm (R238, R239) -/

/-- kept[e] of R238. -/
def kept (cap h : Nat) : Nat := if cap = 0 then h else min h cap

/-- The prefix words of a list of counts from a start, each with whether it or an earlier one has overflowed or met poison. -/
def prefixes (bad : Nat) (acc : Nat) : List (Option Nat) → List (Nat × Nat)
  | [] => []
  | none :: t => let b := if bad = 0 then 4 else bad; (acc, b) :: prefixes b acc t
  | some h :: t =>
    let b := if bad = 0 ∧ acc + h ≥ 2 ^ 32 then 5 else bad
    (acc + h, b) :: prefixes b (acc + h) t

/-- off and ovf of R238 from the counts; a poisoned count has none. A sum that overflows in either list poisons that word and
the later ones of both. -/
def routeLists (cap : Nat) (hist : List (Option Nat)) : List (Nat × Nat) × List (Nat × Nat) :=
  let off := (0, 0) :: prefixes 0 0 (hist.map fun h => h.map (kept cap))
  let ovf := (0, 0) :: prefixes 0 0 (hist.map fun h => h.map fun x => x - kept cap x)
  let worse := (off.zip ovf).map fun p => if p.1.2 ≠ 0 then p.1.2 else p.2.2
  ((off.zip worse).map fun p => (p.1.1, p.2), (ovf.zip worse).map fun p => (p.1.1, p.2))

/-- The results of rpfx. -/
def rpfxRun (s : State) (c : Cmd) : List Res :=
  let blk := c.block.toNat
  let hist := (List.range (field blk 0x08 4)).map fun i =>
    let w := s.eng32 c (field blk 0x00 8 + 4 * i)
    if w.2 then none else some w.1.toNat
  let (off, ovf) := routeLists (field blk 0x0C 4) hist
  let res := fun (base : Nat) (l : List (Nat × Nat)) => l.zipIdx.map fun x =>
    resOf (base + 4 * x.2) 1 (if x.1.2 = 0 then .ok [BitVec.ofNat 32 x.1.1] else .error x.1.2)
  res (field blk 0x10 8) off ++ res (field blk 0x18 8) ovf

/-- The destinations of the rows (R239): `ids` the expert of each row, `none` for a row without a valid one. -/
def destinations (cap nexp : Nat) (ids : List (Option Nat)) : List Nat :=
  let hist := (List.range nexp).map fun x => some (ids.count (some x))
  let (off, ovf) := routeLists cap hist
  let at_ := fun (l : List (Nat × Nat)) (i : Nat) => (l.getD i (0, 0)).1
  ids.zipIdx.map fun x =>
    let q := (ids.take x.2).count x.1
    match x.1 with
    | some ex =>
      let h := kept cap (ids.count (some ex))
      if q < h then at_ off ex + q else at_ off nexp + at_ ovf ex + (q - h)
    | none => at_ off nexp + at_ ovf nexp + q

/-- Follows the cycle of R239 from row `c` back to `r0`: the exchanges made, and the rows placed. -/
def followCycle (d : List Nat) (r0 c : Nat) (done : List Nat) (xs : List (Nat × Nat)) : Nat → List Nat × List (Nat × Nat)
  | 0 => (done, xs)
  | fuel + 1 => if c = r0 then (done, xs) else followCycle d r0 (d.getD c r0) (c :: done) (xs ++ [(r0, c)]) fuel

/-- The row exchanges that apply a permutation in place, in order (R239). -/
def rowExchanges (d : List Nat) : List (Nat × Nat) :=
  ((List.range d.length).foldl (fun (acc : List Nat × List (Nat × Nat)) r0 =>
    if acc.1.contains r0 || d.getD r0 r0 == r0 then acc
    else
      let r := followCycle d r0 (d.getD r0 r0) acc.1 acc.2 d.length
      (r0 :: r.1, r.2)) ([], [])).2

/-- Swaps the bytes and the poison of two ranges of a level (R77, R78). -/
def State.swapRange (s : State) (l1 c1 a1 l2 c2 a2 n : Nat) : State :=
  let bs := fun (l c a : Nat) => (List.range n).map fun i => s.levelByte l c (a + i)
  let ps := fun (l c a : Nat) => (List.range (n / 16)).map fun i => s.levelPoison l c (a / 16 + i)
  let put := fun (s : State) (l c a : Nat) (b : List Byte) (p : List Bool) => s.putRange l c a b p
  let x1 := bs l1 c1 a1
  let x2 := bs l2 c2 a2
  let p1 := ps l1 c1 a1
  let p2 := ps l2 c2 a2
  put (put s l1 c1 a1 x2 p2) l2 c2 a2 x1 p1

/-- One row exchange, leaf by leaf. -/
def rowSwap (s : State) (c : Cmd) (i j : Nat) : State :=
  let blk := c.block.toNat
  let w := field blk 0x0C 1
  (List.range w).foldl (fun s k =>
    match s.engPlace c (field blk 0 8 + 256 * (w * i + k)), s.engPlace c (field blk 0 8 + 256 * (w * j + k)) with
    | some (_, p), some (_, q) => s.swapRange 2 c.core p 2 c.core q 256
    | _, _ => s) s

/-- The experts of an rprm's rows: none for an identifier at least E or poisoned, with whether it is poisoned. -/
def rprmIds (s : State) (c : Cmd) : List (Option Nat × Bool) :=
  let blk := c.block.toNat
  (List.range (field blk 0x08 4)).map fun r =>
    let w := s.eng32 c (field blk 0x10 8 + 4 * r)
    (if w.2 || decide (w.1.toNat ≥ field blk 0x18 4) then none else some w.1.toNat, w.2)

/-- rprm (R239): the rows are permuted in place; its stats record; whether the launch's deferral bit is set; poisoned
identifiers. -/
def rprmRun (s : State) (c : Cmd) : State × List Res × Bool × Nat :=
  let blk := c.block.toNat
  let ids := rprmIds s c
  let nexp := field blk 0x18 4
  let cap := field blk 0x1C 4
  let xs := rowExchanges (destinations cap nexp (ids.map Prod.fst))
  let s := xs.foldl (fun s x => rowSwap s c x.1 x.2) s
  let hist := (List.range nexp).map fun e => some ((ids.map Prod.fst).count (some e))
  let (off, ovf) := routeLists cap hist
  let t := (off.getLastD (0, 0)).1
  let o := (ovf.getLastD (0, 0)).1
  let u := ids.countP fun x => x.1.isNone && !x.2
  let stats := [t, o, u, xs.length].map (BitVec.ofNat 32)
  (s, [⟨field blk 0x20 8, laneBytes4 stats, 0⟩], o != 0 || u != 0, ids.countP Prod.snd)

/-! ### Results and release -/

/-- The context that holds a command's task now, if any. -/
def State.taskCtx (s : State) (l : BitVec 64) (t : BitVec 20) : Option (Nat × Nat) :=
  s.cores.findSome? fun q => (q.2.ctxs.find? fun x =>
    match x.2.task with
    | some y => y.launch == l && y.id == t
    | none => false).map fun x => (q.1, x.1)

/-- The image of a command's task, if it has been saved and not resumed (R229, R284). -/
def State.savedAt (s : State) (c : Cmd) : Option Nat :=
  (s.ctl.saved.find? fun x => x.1 == c.launch && x.2.1 == c.task).map fun x => x.2.2

/-- The engine status word after `n` errors of a code (R228, R231). -/
def errorWord (w : BitVec 64) (n : Nat) (bad : BitVec 8) (eng : BitVec 3) : BitVec 64 :=
  iter satInc n (w.extractLsb' 32 32) ++ bad ++ eng ++ w.extractLsb' 0 21

/-- `n` errors of a command are counted and recorded (R231): in the context that holds its task, or in the image of it. -/
def State.engError (s : State) (c : Cmd) (n : Nat) (bad : BitVec 8) : State :=
  if n = 0 then s
  else
    match s.taskCtx c.launch c.task, s.savedAt c with
    | some (i, k), _ =>
      let y := s.ctx i k
      s.setCtx i k { y with errs := iter satInc n y.errs, errCode := bad, errEng := BitVec.ofNat 3 c.code }
    | none, some a =>
      let w := BitVec.ofNat 64 (wordAt (s.levelByte 2 0) (a + 0x9F10) 8)
      s.putCells 2 0 (cellsOf (a + 0x9F10) 8 (errorWord w n bad (BitVec.ofNat 3 c.code)).toNat) []
    | none, none => s

/-- Free bytes for a poisoned result (R231 states no contents). -/
def freeBytes (base n : Nat) : List Byte := (List.range n).map fun i => BitVec.ofNat 8 (Config.freeNat (base + i))

/-- The bytes of a result where its page stands, poisoned when an error affects it; and their level. -/
def Res.stored (s : State) (c : Cmd) (r : Res) (bytes : List Byte) : List (Nat × SByte) :=
  bytes.zipIdx.filterMap fun b =>
    match s.engPlace c (r.va + b.2) with
    | some (lvl, pa) => some (lvl, (⟨r.va + b.2, pa, b.1, r.bad != 0⟩ : SByte))
    | none => none

/-- An error of a result counts and is recorded (R231). -/
def countError (c : Cmd) (s : State) (r : Res) : State := s.engError c (if r.bad = 0 then 0 else 1) (BitVec.ofNat 8 r.bad)

/-- Results are written as one store: their bytes, which R231 does not state for a result that an error affects; every part of
such a result is poisoned, and a part that results without an error cover wholly loses its poison (R70, R231, log 12). -/
def putResults (c : Cmd) (s : State) (rs : List Res) : State :=
  let (free, bs) := rs.foldl (fun (x : Nat × List (Nat × SByte)) r =>
    if r.bad = 0 then (x.1, x.2 ++ r.stored s c r.bytes)
    else (x.1 + r.bytes.length, x.2 ++ r.stored s c (freeBytes x.1 r.bytes.length))) (s.free, [])
  let sb : List SByte := bs.map Prod.snd
  let s := ({ s with free := free }).writeAs 512 0 ((bs.map Prod.fst).headD 3) c.core (sb.map fun (b : SByte) => (b.pa, b.b)) (storePoison sb)
  rs.foldl (countError c) s

/-- One result is written. -/
def putResult (c : Cmd) (s : State) (r : Res) : State := putResults c s [r]

/-- The rows of a sidx, each pooled and written before the next (R235): the command finds its own rows written in both views of the
memories. -/
def sidxRows (s : State) (c : Cmd) : Nat → State × Cmd
  | 0 => (s, c)
  | b + 1 =>
    let (s, c) := sidxRows s c b
    let r := sidxBag s c b
    (putResult c s r, { c with snap := c.snap.map fun m => (putResult c { s with mem := m, agenda := [] } r).mem })

/-- The results of a command are formed and written (R235 to R239). -/
def engineResults (s : State) (c : Cmd) : State :=
  match c.code with
  | 0 => (sidxRows s c (field c.block.toNat 0x0E 2)).1
  | 1 => putResults c s (sredRun s c)
  | 2 => (stopkRun s c).foldl (putResult c) s
  | 3 => let n := field c.block.toNat 0x08 4 + 1
         let rs := rpfxRun s c
         putResults c (putResults c s (rs.take n)) (rs.drop n)
  | _ =>
    let (s, rs, defer, bad) := rprmRun s c
    let s := rs.foldl (putResult c) s
    let s := if defer then s.setDefer c.launch else s
    s.engError c bad 4

/-- The engine commands that wait for their acquire, wait at an engine, are shadowed or current. -/
def State.commands (s : State) : List Cmd :=
  (s.engines.flatMap fun q => q.2.cur.toList ++ q.2.shadow.toList ++ q.2.queue) ++
    s.agenda.filterMap fun p => match p.ev with | .engAcquire d => some d | _ => none

/-- Whether a claim may be released now that route commands still run (R240): no other current or shadowed route command of the
core writes the folio. -/
def State.routeHolds (s : State) (core folio : Nat) : Bool :=
  s.commands.any fun c =>
    c.code ≥ 3 && c.core == core && !c.done && (blockRegs c.code c.block.toNat).any fun g => g.wr && g.pages.any fun p =>
      match s.engPlace c p.1 with
      | some (2, pa) => decide (pa / 16384 ≤ folio ∧ folio ≤ (pa + p.2 - 1) / 16384)
      | _ => false

/-- Whether core `i`, context `k`, is in an acquire's scope (R232); `k` is 4 more for what an earlier task of the context has left in
flight. -/
def Cmd.inScope (c : Cmd) (i k : Nat) : Bool :=
  match (c.flags.extractLsb' 2 2).toNat with
  | 0 => i == c.core && k % 4 == c.ctx
  | 1 => i == c.core
  | _ => true

/-- Whether another command is one of an agent in an acquire's scope (R232): a task that has moved is the same agent. -/
def Cmd.covers (c d : Cmd) : Bool := c.inScope d.core d.ctx || (d.launch == c.launch && d.task == c.task)

/-- Whether an operation in flight writes the stacks: a store, an exchange with a stacks place, or an engine's results. -/
def Pending.writesHbm (p : Pending) : Bool :=
  match p.ev with
  | .write .. => p.lvl == 3
  | .xch _ a b => a.lvl == 3 || b.lvl == 3
  | .spill .. => true
  | _ => false

/-- Whether an acquire is satisfied (R232): no write in its scope issued before the command, nor a command issued before it
whose results are not written, is left. -/
def acquired (s : State) (c : Cmd) : Bool :=
  !c.flags.getLsbD 0 ||
    (!(s.agenda.any fun p => p.writesHbm && decide (p.seq < c.id) && c.inScope p.core p.ctx) &&
      !(s.commands.any fun d => decide (d.id < c.id) && !d.done && c.covers d))

/-- The waiting command of an engine's input that may enter its shadow set does, and a shadowed command starts when none is
current (R223, R230). -/
def State.engAdvance (s : State) (e : Nat) : State :=
  let x := s.engine e
  let x := match x.shadow, x.queue with
    | none, c :: t => { x with shadow := some c, queue := t }
    | _, _ => x
  let s := { s with engines := mput s.engines e x }
  match x.cur, x.shadow with
  | none, some _ => s.post (s.clock + 1) true 0 0 (.engStart e)
  | _, _ => s

/-- ENGINE_ACQUIRE (R230, R232): a command whose acquire is satisfied, and that no earlier command of its context or task to the same engine
precedes, enters its engine; another one is tried again in the next clock. -/
def engAcquire (s : State) (c : Cmd) : State :=
  let earlier := s.agenda.any fun p =>
    match p.ev with
    | .engAcquire d =>
      decide (d.id < c.id) && ((d.core == c.core && d.ctx == c.ctx) || (d.launch == c.launch && d.task == c.task)) && d.engine == c.engine
    | _ => false
  if !acquired s c || earlier then s.post (s.clock + 1) true c.core 0 (.engAcquire c)
  else
    let x := s.engine c.engine
    let s := { s with engines := mput s.engines c.engine { x with queue := x.queue ++ [c] } }
    s.engAdvance c.engine

/-- The parts that exchanges in flight have swapped stand where their contents now lie (R78). -/
def State.swapsDone (s : State) : State :=
  s.agenda.foldl (fun t p =>
    match p.ev with
    | .xch leaf a b =>
      (List.range (if leaf then 16 else 1024)).foldl (fun t i =>
        if s.swapped p i then t.swapRange a.lvl a.core (a.pa + 16 * i) b.lvl b.core (b.pa + 16 * i) 16 else t) t
    | _ => t) s

/-- A command's reads and writes reach the gallery banks of its regions (R83). -/
def engTouch (s : State) (c : Cmd) : State :=
  (blockRegs c.code c.block.toNat).foldl (fun s g => g.pages.foldl (fun s p =>
    match s.engPlace c p.1 with
    | some (lvl, pa) => s.agentTouch lvl pa
    | none => s) s) s

/-- ENGINE_COMMAND_START (R223): the shadowed command becomes current; its results are written at a free time. -/
def engStart (s : State) (e : Nat) : State :=
  let x := s.engine e
  match x.cur, x.shadow with
  | none, some c =>
    let x := { x with cur := some { c with snap := some s.swapsDone.mem }, shadow := none }
    let s := (engTouch { s with engines := mput s.engines e x } c).engAdvance e
    s.post (s.clock + 1 + Config.freeNat s.free) true 0 0 (.engEnd e)
  | _, _ => s

/-- A command leaves the count of the context that it is in flight for (R227). -/
def State.oneLess (s : State) (c : Cmd) : State :=
  let y := s.ctx c.owner.1 c.owner.2
  if y.infl = 0 then s else s.setCtx c.owner.1 c.owner.2 { y with infl := y.infl - 1 }

/-- A command has ended: its engine is free and it leaves the count of its context (R223, R227). -/
def engFree (s : State) (c : Cmd) : State :=
  let x := s.engine c.engine
  (({ s with engines := mput s.engines c.engine { x with cur := none } }).oneLess c).engAdvance c.engine

/-- The results of an engine's current command are written (R233). -/
def engPerform (s : State) (e : Nat) (c : Cmd) : State :=
  let s := engineResults (engTouch s c) c
  let x := s.engine e
  { s with engines := mput s.engines e { x with cur := some { c with done := true } } }

/-- The image counter of a saved task that a release increments (R229, R285): counter `k` at 0x9ED0 + 8k. -/
def imageCount (s : State) (c : Cmd) (k : Nat) : State :=
  match s.savedAt c with
  | some a =>
    let p := a + 0x9ED0 + 8 * k
    let v := wordAt (fun b => s.levelByte 2 0 b) p 8
    s.putCells 2 0 (cellsOf p 8 (v + 1)) []
  | none => s

/-- ENGINE_RELEASE (R233): the flag is written and the issuing context's counter, or its image's, increments; a command that has lost its
release only ends (R229). -/
def engRelease (s : State) (c : Cmd) : State :=
  if !c.releases then engFree s c
  else
  let blk := c.block.toNat
  let k := (c.flags.extractLsb' 4 3).toNat
  let s := match s.engPlace c (field blk 0x30 8) with
    | some (lvl, pa) => s.writeAs 512 0 lvl c.core (cellsOf pa 8 (field blk 0x38 8)) []
    | none => s
  let s := match s.taskCtx c.launch c.task with
    | some (i, j) => let y := s.ctx i j; s.setCtx i j { y with ecnt := mput y.ecnt k (mget y.ecnt 0 k + 1) }
    | none => imageCount s c k
  engFree s c

end Sys2Proof.Machine
end

