-- ==== Sys2Proof/Machine/System.lean ====
section
/-! DEFINITION. The unit sy (R10, R88, R133, R275, R278, R279) and the status words that a context reads (R123, R189, R198,
R212, R228). -/

namespace Sys2Proof.Machine

/-! ### Status words -/

/-- The group status word (R198). -/
def State.groupWord (s : State) : BitVec 64 :=
  BitVec.ofBool s.gs.desync ++ s.gs.due ++ BitVec.ofBool s.gs.frozen ++ BitVec.ofBool s.gs.leader ++ 0#11 ++ s.gs.applied
    ++ s.gs.refused ++ s.gs.offset

/-- The arrival status word (R189). -/
def Ctx.arrivalWord (y : Ctx) : BitVec 64 := 0#28 ++ BitVec.ofNat 4 y.mailbox.length ++ y.msgdrop ++ y.bcdrop

/-- The region status word (R212). -/
def State.regionWord (s : State) (y : Ctx) : BitVec 64 :=
  if y.region.isOpen then
    1#1 ++ 0#7 ++ BitVec.ofNat 12 (s.regionCyc y) ++ BitVec.ofNat 10 y.region.undo.length ++ 0#21 ++ y.region.start
  else 0

/-- The context status item (R279). -/
def Ctx.statusWord (y : Ctx) (k : Nat) : BitVec 64 :=
  y.taskId ++ 0#40 ++ BitVec.ofBool y.record.valid ++ BitVec.ofBool y.timed ++ BitVec.ofNat 2 k

/-- Item `i` of a context (R279); 0 above 8. -/
def State.ctxItem (s : State) (c k i : Nat) : BitVec 64 :=
  let y := s.ctx c k
  match i with
  | 0 => y.trapVec.zeroExtend 64
  | 1 => y.regs.flags.zeroExtend 64
  | 2 => y.arrivalWord
  | 3 => y.engineWord
  | 4 => s.regionWord y
  | 5 => y.regs.loopWord
  | 6 => BitVec.ofNat 64 y.regs.masks.length
  | 7 => y.regs.spill.depth
  | 8 => y.statusWord k
  | _ => 0

/-- The write of an item (R279). -/
def Ctx.writeItem (y : Ctx) (i : Nat) (t : BitVec 64) : Ctx :=
  match i with
  | 0 => { y with trapVec := t.extractLsb' 0 14 }
  | 1 => { y with regs := { y.regs with flags := y.regs.flags &&& ~~~(t.extractLsb' 0 5) } }
  | 2 => { y with bcdrop := if t.getLsbD 0 then 0 else y.bcdrop, msgdrop := if t.getLsbD 1 then 0 else y.msgdrop }
  | 3 => if t.getLsbD 0 then { y with errs := 0, errCode := 0, errEng := 0 } else y
  | _ => y

/-! ### Operations -/

/-- Words 1 and 0 of sy's landing at +2. -/
def syLands (e : Env) (s : State) (z : BitVec 64) (y : Option (BitVec 64)) : State :=
  s.lands e.c e.k 21 2 (some (raw z)) (y.map raw) 0

/-- Whether t asks for a return from a trap: all ones resumes, all ones minus one skips (R275). -/
def returnOf (t : BitVec 64) : Option Bool :=
  if t = BitVec.allOnes 64 then some false else if t = BitVec.allOnes 64 - 1 then some true else none

/-- trec's read of word t of the record (R278). -/
def trecWord (e : Env) (s : State) (t : BitVec 64) : State :=
  if t.toNat < 16 then syLands e s (mget e.y.record.words 0 t.toNat) (some 0) else syLands e s 0 (some 1)

/-- The landing of a return (R275): y is 1 when no record is valid, in which case nothing else happens. -/
def trecReturn (e : Env) (s : State) : State := syLands e s 0 (some (if e.y.record.valid then 0 else 1))

/-- trec, by the value of t: the reads, and the landing of the returns, which themselves act in step 5 (R275, R278). -/
def trecOp : Op := Op.plain fun e t s => do
  checkUses [useS t.sval 4]
  match returnOf t.sval.val with
  | some _ => return trecReturn e s
  | none => return trecWord e s t.sval.val

/-- trec as a read (R278). -/
def opTrecRead : Op := trecOp
/-- trec as a resume (R275). -/
def opTrecResume : Op := trecOp
/-- trec as a skip (R275). -/
def opTrecSkip : Op := trecOp

/-- budg (R278): the budget before this bundle's decrement. -/
def opBudg : Op := Op.plain fun e t s => do
  checkUses [useS t.sval 4]
  return syLands e s e.y.regs.budget (some 0)

/-- gcyc (R278). -/
def opGcyc : Op := Op.plain fun e t s => do
  checkUses [useS t.sval 4]
  trapIf e.y.region.isOpen trapRegion
  return syLands e s e.s.count (some e.s.groupWord)

/-- ctx (R279): the read and the write happen at +2; a new trap vector serves traps from the cycle after +2. -/
def opCtx : Op := Op.plain fun e t s => do
  checkUses [useS (e.ps 21 0) 0, useS t.sval 4]
  let a := (e.ps 21 0).val
  let i := a.toNat % 16
  let s := s.pend e.c e.k 0 false 2 0 (.ctxRead (BitVec.ofBool (a.getLsbD 8) ++ BitVec.ofNat 8 i))
  if a.getLsbD 8 then return s.pend e.c e.k 0 false (if i = 0 then 3 else 2) 0 (.ctxWrite i t.sval.val) else return s

/-- trld (R133): at +2 the entry changes and z takes the old one. -/
def opTrld : Op := Op.plain fun e t s => do
  checkUses [useS (e.ps 21 0) 0, useS t.sval 4]
  return s.pend e.c e.k 0 false 2 0 (.recipe ((e.ps 21 0).val.toNat % 16) (t.sval.val.extractLsb' 0 12))

/-- sbase (R88): the depth that y gives is the one at issue (DESIGN CHOICE, log 49). -/
def opSbase : Op := Op.plain fun e t s => do
  checkUses [useS (e.ps 21 0) 0, useS t.sval 4]
  let y := s.ctx e.c e.k
  let x := y.regs.spill
  let s := s.setRegs e.c e.k { y.regs with spill := { x with obase := (e.sbaseOf t).1, olimit := (e.sbaseOf t).2 } }
  return syLands e s x.obase (some x.depth)

/-- seed (R278): at +2. -/
def opSeed : Op := Op.plain fun e t s => do
  checkUses [useS t.sval 4]
  return s.pend e.c e.k 0 false 2 0 (.seed t.sval.val)

/-- lparm (R10). -/
def opLparm : Op := Op.plain fun e t s => do
  checkUses [useS t.sval 4]
  if t.sval.val.toNat < 64 then
    return syLands e s (mget (e.s.launch e.y.launch).params 0 t.sval.val.toNat) (some 0)
  else return syLands e s 0 (some 1)

end Sys2Proof.Machine
end

