-- ==== Sys2Proof/Machine/Control.lean ====
section
/-! DEFINITION. The control slot: branches, calls, loops and their events (R44 to R48, R56 to R60), the mask stack (R124), waits
and yield (R50 to R52), phase (R175, R176), fences (R160, R234), tune (R200), trap, sysc and halt (R53 to R55), ckend (R212,
R216). -/

namespace Sys2Proof.Machine

/-! ### Loops -/

/-- The innermost active level of the current frame (R47, R58). -/
def Regs.innermost (r : Regs) : Option Nat := if r.floor.toNat < r.depth.toNat then some (r.depth.toNat - 1) else none

/-- Whether bundle `p` is the end bundle of the innermost level of the current frame. -/
def Regs.atEnd (r : Regs) (p : BitVec 13) : Bool :=
  match r.innermost with
  | some k => (r.loop k).stop == p
  | none => false

/-- Levels from `k` up become inactive (R60). Their remain and other fields stay as they are, of which R60 says nothing (DESIGN CHOICE,
log 49). -/
def Regs.popFrom (r : Regs) (k : Nat) : Regs :=
  { (List.range 4).foldl (fun r j => if k ≤ j then r.setLoop j { r.loop j with act := false } else r) r with
    depth := BitVec.ofNat 3 k }

/-- The loop event of R58 for end bundle `e`, with its cascade, and the next bundle. -/
def loopEvent (r : Regs) (e : BitVec 13) : Nat → Regs × BitVec 13
  | 0 => (r, e + 1)
  | fuel + 1 =>
    match r.innermost with
    | none => (r, e + 1)
    | some k =>
      let l := r.loop k
      if l.stop ≠ e then (r, e + 1)
      else if l.remain - 1 ≠ 0 then
        let r := r.setLoop k { l with remain := l.remain - 1, iter := l.iter + 1 }
        let r := if l.rot then
            let r := { r with base := r.base - 1 }
            r.wrQ 8 (decide (l.stm1.toNat < (l.remain - 1).toNat))
          else r
        (r, l.start)
      else loopEvent ((r.setLoop k { l with remain := 0 }).popFrom k) e fuel

/-- The next bundle after `p` when nothing transfers control: the loop event, or the following bundle (R58). -/
def fallFrom (r : Regs) (p : BitVec 13) : Regs × BitVec 13 := if r.atEnd p then loopEvent r p 4 else (r, p + 1)

/-- A taken transfer to a bundle leaves the levels of the frame whose bodies it lies outside (R60). -/
def Regs.leave (r : Regs) (target : BitVec 13) : Regs :=
  let outside := fun (k : Nat) =>
    decide (r.floor.toNat ≤ k ∧ k < r.depth.toNat) &&
      !(decide ((r.loop k).start.toNat ≤ target.toNat ∧ target.toNat ≤ (r.loop k).stop.toNat))
  match (List.range 4).find? outside with
  | some k => r.popFrom k
  | none => r

/-- How a control operation leaves the next bundle to be found (R44, R57, R58, R60). -/
inductive Flow where
  /-- the loop event, or the following bundle -/
  | fall
  /-- a taken transfer that replaces the loop event and leaves loops -/
  | take (b : BitVec 13)
  /-- a transfer that pops nothing -/
  | go (b : BitVec 13)
  /-- the loop event as if bundle `e` had issued -/
  | event (e : BitVec 13)
  deriving DecidableEq, Repr

/-- The registers and next bundle of a flow from bundle `p`. -/
def Flow.apply (f : Flow) (r : Regs) (p : BitVec 13) : Regs × BitVec 13 :=
  match f with
  | .fall => fallFrom r p
  | .take b => (r.leave b, b)
  | .go b => (r, b)
  | .event e => loopEvent r e 4

/-- A control operation (R44): whether its bundle is illegal now (R50, R175); whether an open region forbids it (R214); whether
its bundle waits (R216); whether it ends a region; the code of a software trap; its effect in step 5; and the registers that it writes, by
their codes (R282). -/
structure Ctl where
  illegal : Env → Bool
  impure : Bool
  hold : Env → State → Bool
  ends : Bool
  soft : Option (BitVec 16)
  run : Env → State → Except Trap (State × Flow)
  writes : Env → List Nat := fun _ => []

/-- A control operation with only an effect. -/
def Ctl.plain (run : Env → State → Except Trap (State × Flow)) : Ctl :=
  { illegal := fun _ => false, impure := false, hold := fun _ _ => false, ends := false, soft := none, run := run }

/-- loop-nesting fault. -/
def trapNesting : Trap := trapOf 0x05 0 0
/-- loop-frame fault. -/
def trapFrame : Trap := trapOf 0x06 0 0

/-- A register of the control slot (R44, R281, R282): read in step 2, its poison consumed. -/
def ctlReg (e : Env) (n : BitVec 6) : Except Trap (BitVec 64) := do
  e.regError (n.zeroExtend 10)
  let v := e.y.regs.rdS n.toNat
  checkUses [useS v 6]
  return v.val

/-- Updates the registers of the issuing context. -/
def Env.onRegs (e : Env) (s : State) (f : Regs → Regs) : State := s.setRegs e.c e.k (f (s.ctx e.c e.k).regs)

/-- Target of a relative branch (R46). -/
def relative (p : BitVec 13) (o : BitVec 14) : BitVec 13 := p + o.extractLsb' 0 13

/-- loop-nesting in the end bundle of the frame's innermost level (R59). -/
def notAtEnd (e : Env) : Except Trap Unit := trapIf (e.y.regs.atEnd e.pc) trapNesting

/-- nop, limm and limmh (R35, R49): nothing but the loop event. -/
def ctlNop : Ctl := Ctl.plain fun _ s => .ok (s, .fall)
/-- limm (R49). -/
def ctlLimm : Ctl := Ctl.plain fun _ s => .ok (s, .fall)
/-- limmh (R49). -/
def ctlLimmh : Ctl := Ctl.plain fun _ s => .ok (s, .fall)

/-- br (R46). -/
def ctlBr (o : BitVec 14) : Ctl := Ctl.plain fun e s => .ok (s, .take (relative e.pc o))

/-- The link word (R47). -/
def linkWord (floor : BitVec 3) (p : BitVec 13) : BitVec 64 := 0#45 ++ floor ++ 0#3 ++ (p + 1)

/-- The link is written and the frame floor raised to the depth (R47). -/
def callFrame (e : Env) (s : State) (link : BitVec 6) : State :=
  e.onRegs s fun r =>
    { r.wrS link.toNat (sv (linkWord e.y.regs.floor e.pc)) with floor := r.depth }

/-- call (R47). -/
def ctlCall (n : BitVec 6) (o : BitVec 14) : Ctl :=
  { Ctl.plain fun e s => do
      notAtEnd e
      return (callFrame e s n, .go (relative e.pc o)) with
    writes := fun e => [physSV e.y.regs.base n.toNat] }

/-- calli (R47). -/
def ctlCalli (n m : BitVec 6) : Ctl :=
  { Ctl.plain fun e s => do
      let v ← ctlReg e n
      notAtEnd e
      return (callFrame e s m, .go (v.extractLsb' 0 13)) with
    writes := fun e => [physSV e.y.regs.base m.toNat] }

/-- ret (R47). -/
def ctlRet (n : BitVec 6) : Ctl := Ctl.plain fun e s => do
  let v ← ctlReg e n
  notAtEnd e
  let r := e.y.regs
  trapIf (decide (r.floor.toNat < r.depth.toNat)) trapFrame
  trapIf (v.extractLsb' 19 45 != 0 || v.extractLsb' 13 3 != 0 || decide (r.floor.toNat < (v.extractLsb' 16 3).toNat)) trapFrame
  return (e.onRegs s fun r => { r with floor := v.extractLsb' 16 3 }, .go (v.extractLsb' 0 13))

/-- jmpi (R48). -/
def ctlJmpi (n : BitVec 6) : Ctl := Ctl.plain fun e s => do
  let v ← ctlReg e n
  return (s, .take (v.extractLsb' 0 13))

/-- The predicates that a rotating loop sets when it opens (R57). -/
def openQ (r : Regs) (stm1 : Nat) : Regs := (List.range stm1).foldl (fun r j => r.wrQ (9 + j) false) (r.wrQ 8 true)

/-- Opens loop level `k` with count `n` (R57). A sum n + stages - 1 above 2^64 - 1 is kept modulo 2^64, so that 0 stands for 2^64 iterations
(DESIGN CHOICE, log 49). -/
def openLoop (k : BitVec 2) (n : BitVec 64) (d : BitVec 10) (stm1 : BitVec 3) (rot : Bool) (e : Env) (s : State) :
    Except Trap (State × Flow) := do
  let r := e.y.regs
  let stop := e.pc.toNat + d.toNat
  let inner := r.floor.toNat < k.toNat
  let outer := r.loop (k.toNat - 1)
  trapIf (decide (k.toNat ≠ r.depth.toNat) || d == 0 || decide (8191 < stop)) trapNesting
  trapIf (decide inner && decide (outer.stop.toNat < stop)) trapNesting
  notAtEnd e
  let stopB := BitVec.ofNat 13 stop
  if n = 0 then
    if inner ∧ outer.stop = stopB then return (s, .event stopB) else return (s, .go (stopB + 1))
  else
    let l : Loop := { remain := n + stm1.zeroExtend 64, iter := 0, act := true, rot := rot, stm1 := stm1, start := e.pc + 1,
                      stop := stopB }
    return (e.onRegs s fun r =>
      let r := { r.setLoop k.toNat l with depth := r.depth + 1 }
      if rot then openQ r stm1.toNat else r, .go (e.pc + 1))

/-- The predicates that a rotating loop writes when it opens, by their codes; a loop of no iteration opens none (R57). -/
def openCodes (stm1 : BitVec 3) (rot : BitVec 1) (n : BitVec 64) (e : Env) : List Nat :=
  if rot = 1 ∧ n ≠ 0 then (List.range (stm1.toNat + 1)).map fun j => 0x80 + physQ e.y.regs.base (8 + j) else []

/-- loop (R57). -/
def ctlLoop (k : BitVec 2) (n : BitVec 6) (d : BitVec 10) (stm1 : BitVec 3) (rot : BitVec 1) : Ctl :=
  { Ctl.plain fun e s => do
      let v ← ctlReg e n
      openLoop k v d stm1 (rot == 1) e s with
    writes := fun e => openCodes stm1 rot (e.y.regs.rdS n.toNat).val e }
/-- loopi (R57). -/
def ctlLoopi (k : BitVec 2) (n : BitVec 6) (d : BitVec 10) (stm1 : BitVec 3) (rot : BitVec 1) : Ctl :=
  { Ctl.plain fun e s => openLoop k (n.zeroExtend 64) d stm1 (rot == 1) e s with
    writes := openCodes stm1 rot (n.zeroExtend 64) }

/-- brk (R60). -/
def ctlBrk (k : BitVec 2) : Ctl := Ctl.plain fun e s => do
  let r := e.y.regs
  trapIf (decide (r.depth.toNat ≤ k.toNat)) trapNesting
  trapIf (decide (k.toNat < r.floor.toNat)) trapFrame
  return (e.onRegs s fun r => r.popFrom k.toNat, .go ((r.loop k.toNat).stop + 1))

/-! ### The mask stack (R124) -/

/-- mask-stack overflow. -/
def trapOverflow : Trap := trapOf 0x07 0 0
/-- mask-stack underflow. -/
def trapUnderflow : Trap := trapOf 0x08 0 0

/-- The source code of a mask register. -/
def maskSrc (n : BitVec 3) : BitVec 10 := 0xC0#10 + n.zeroExtend 10

/-- mpush (R124). -/
def ctlMpush (n : BitVec 3) : Ctl := Ctl.plain fun e s => do
  let r := e.y.regs
  e.regError (maskSrc n)
  e.unpoisoned (maskSrc n)
  trapIf (decide (16 ≤ r.masks.length)) trapOverflow
  return (e.onRegs s fun q => { q with masks := q.masks ++ [r.top &&& r.rdM n.toNat], above := q.above.drop 1 }, .fall)

/-- mpop (R124): only the depth falls; the entry stays. -/
def ctlMpop : Ctl := Ctl.plain fun e s => do
  trapIf e.y.regs.masks.isEmpty trapUnderflow
  return (e.onRegs s fun q => { q with masks := q.masks.dropLast, above := q.top :: q.above }, .fall)

/-- minv Mn (R124). -/
def ctlMinv (n : BitVec 3) : Ctl := Ctl.plain fun e s => do
  let r := e.y.regs
  e.regError (maskSrc n)
  e.unpoisoned (maskSrc n)
  trapIf r.masks.isEmpty trapUnderflow
  return (e.onRegs s fun q => { q with masks := q.masks.dropLast ++ [r.top &&& ~~~(r.rdM n.toNat)] }, .fall)

/-- minv else (R124). -/
def ctlMinvElse : Ctl := Ctl.plain fun e s => do
  let r := e.y.regs
  trapIf r.masks.isEmpty trapUnderflow
  let parent := (r.masks.dropLast.getLast?).getD allLanes
  return (e.onRegs s fun q => { q with masks := q.masks.dropLast ++ [parent &&& ~~~r.top] }, .fall)

/-- brnone (R124). -/
def ctlBrnone (o : BitVec 14) : Ctl := Ctl.plain fun e s =>
  .ok (s, if e.y.regs.top = 0 then .take (relative e.pc o) else .fall)
/-- brany (R124). -/
def ctlBrany (o : BitVec 14) : Ctl := Ctl.plain fun e s =>
  .ok (s, if e.y.regs.top = 0 then .fall else .take (relative e.pc o))

/-! ### Waits -/

/-- The context of the bundle waits from now on. -/
def Env.waits (e : Env) (s : State) (w : Wait) : State := 
  s.setCtx e.c e.k { s.ctx e.c e.k with status := .waiting w, readyAt := s.clock + 1 }

/-- A wait of R50: illegal in a timed context, a region violation in a region. -/
def ctlWait (mk : Env → Except Trap Wait) : Ctl :=
  { Ctl.plain fun e s => do let w ← mk e; return (e.waits s w, .fall) with
    illegal := fun e => e.y.timed, impure := true }

/-- wait eng (R50). -/
def ctlWaitEng (i : BitVec 3) (n : BitVec 6) : Ctl := ctlWait fun e => do return .eng i (← ctlReg e n)
/-- wait arr (R50). -/
def ctlWaitArr (k : BitVec 3) : Ctl := ctlWait fun _ => .ok (.arr k)
/-- wait xcnt (R50). -/
def ctlWaitXcnt (n : BitVec 6) : Ctl := ctlWait fun e => do return .xcnt (← ctlReg e n)

/-- The address of a carrel word that a wait reads (R50). -/
def waitWord (e : Env) (n : BitVec 6) : Except Trap (BitVec 64) := do
  let a ← ctlReg e n
  trapIf (decide (0x200000 ≤ a.toNat)) (trapXlat a 0)
  return a &&& ~~~7#64

/-- wait weq (R50). -/
def ctlWaitWeq (n m : BitVec 6) : Ctl := ctlWait fun e => do
  let a ← waitWord e n
  return .weq a (← ctlReg e m)
/-- wait wne (R50). -/
def ctlWaitWne (n m : BitVec 6) : Ctl := ctlWait fun e => do
  let a ← waitWord e n
  return .wne a (← ctlReg e m)

/-- The cycle that a waitc of value `v` waits for: max(c + 1, v), c being the cycle of its bundle (R51). -/
def Env.waitCycle (e : Env) (v : BitVec 64) : BitVec 64 := BitVec.ofNat 64 (max (e.s.pos e.y + 1) v.toNat)

/-- waitc (R51). -/
def ctlWaitc (n : BitVec 6) : Ctl :=
  { Ctl.plain fun e s => do let v ← ctlReg e n; return (e.waits s (.waitc (e.waitCycle v)), .fall) with impure := true }

/-- yield (R52). -/
def ctlYield : Ctl := Ctl.plain fun e s =>
  .ok (if e.y.timed then s else s.setCtx e.c e.k { s.ctx e.c e.k with yieldFor := s.clock + 1 }, .fall)

/-- cfence (R160). -/
def ctlCfence : Ctl := Ctl.plain fun e s => .ok (e.waits s .carrel, .fall)
/-- sfence acq (R234). -/
def ctlSfenceAcq : Ctl := Ctl.plain fun e s => .ok (e.waits s (.hbm true false e.s.free), .fall)
/-- sfence rel (R234). -/
def ctlSfenceRel : Ctl := Ctl.plain fun e s => .ok (e.waits s (.hbm false true e.s.free), .fall)
/-- sfence acq rel (R234). -/
def ctlSfenceAcqRel : Ctl := Ctl.plain fun e s => .ok (e.waits s (.hbm true true e.s.free), .fall)

/-! ### Phases (R175, R176) -/

/-- A timed context issues phase at count `c` with window `w`: it opens a boundary, or joins the open one late (R176). A phase of the cycle in
which the boundary opened joins it without a skew, whatever its window and scope, and the boundary keeps the first one's (DESIGN CHOICE,
log 56). `who` are the contexts of this package that do so. -/
def Launch.phaseAt (x : Launch) (c w scope : Nat) (who : List (Nat × Nat)) : Launch :=
  let fresh : Boundary :=
    { opened := c, window := w, scope := scope, merged := 0, overrun := false, final := false, closed := false,
      joined := who, mark := 0 }
  match x.boundary with
  | some b =>
    if c < b.opened + b.window then
      { x with skew := if c = b.opened then x.skew else satInc x.skew
               boundary := some { b with joined := b.joined ++ who } }
    else { x with boundary := some fresh, lastScope := scope }
  | none => { x with boundary := some fresh, lastScope := scope }

/-- phase with a scope and window W (R175); illegal in a launch without a timed context. -/
def ctlPhase (scope : Nat) (w : BitVec 20) : Ctl :=
  { Ctl.plain fun e s =>
      if e.y.timed then
        let w' := max w.toNat s.gs.hLat
        let c := e.s.pos e.y
        let s := s.setLaunch e.y.launch ((s.launch e.y.launch).phaseAt c w' scope [(e.c, e.k)])
        .ok (e.waits s (.untilPos (c + w')), .fall)
      else .ok (e.waits s .boundary, .fall) with
    illegal := fun e => !(e.s.hasTimed e.y.launch), impure := true }

/-- phase launch (R175). -/
def ctlPhaseLaunch (w : BitVec 20) : Ctl := ctlPhase 0 w
/-- phase group (R175). -/
def ctlPhaseGroup (w : BitVec 20) : Ctl := ctlPhase 1 w

/-! ### tune, trap, sysc, halt, ckend -/

/-- tune (R200): in a timed context it asks for the correction that is due; the next clock makes it. -/
def ctlTune : Ctl :=
  { Ctl.plain fun e s =>
      if !e.y.timed then .ok (s, .fall)
      else if s.gs.due = 1 then .ok ({ s with gs := { s.gs with tune := 1 } }, .fall)
      else if s.gs.due = 3 then .ok ({ s with gs := { s.gs with tune := 3 } }, .fall)
      else .ok (s, .fall) with impure := true }

/-- trap (R53): the trap is taken after the bundle has committed. -/
def ctlTrap (code : BitVec 16) : Ctl :=
  { Ctl.plain fun _ s => .ok (s, .fall) with impure := true, soft := some code }

/-- sysc (R54): the service is requested with S1 to S7 as the bundle leaves them; a free context waits for it. A register that the
bundle does not write is read (R282). The values pass without their poison, for which R281 has no row (DESIGN CHOICE, log 49). -/
def ctlSysc (n : BitVec 16) : Ctl :=
  { Ctl.plain fun e s => do
      ((List.range 7).filter fun i => !e.dsts.contains (BitVec.ofNat 10 (i + 1))).forM fun i => e.regError (BitVec.ofNat 10 (i + 1))
      let r := (s.ctx e.c e.k).regs
      let args := (List.range 7).map fun i => (r.rdS (i + 1)).val
      let s' := s.post (s.clock + 1 + Config.freeNat s.free) true e.c e.k (.service n args e.y.launch)
      return (if e.y.timed then s' else e.waits s' (.service s.free), .fall) with impure := true }

/-- halt (R55): the context issues no more; its task completes under R20. Active levels are discarded. -/
def ctlHalt : Ctl :=
  { Ctl.plain fun e s =>
      .ok (s.setCtx e.c e.k { s.ctx e.c e.k with status := .halted }, .fall) with impure := true }

/-- ckend (R212, R216). -/
def ctlCkend : Ctl :=
  { Ctl.plain fun _ s => .ok (s, .fall) with
    hold := fun e s => e.y.region.isOpen && s.ownBeats e.c e.k, ends := true }

end Sys2Proof.Machine
end

