-- ==== Sys2Proof/Machine/Tasks.lean ====
section
/-! DEFINITION. Tasks and launches: the start and the end of a task (R7, R20, R165, R250), phase boundaries (R176 to R184), the end
of a launch (R182, R258), and the retirement of a core (R219, R283, R288). -/

namespace Sys2Proof.Machine

/-! ### Operations in flight -/

/-- Whether an event is an operation that a bundle started for its own context (R213, R217). -/
def Ev.ofBundle : Ev → Bool
  | .land .. | .write .. | .cas .. | .fill .. | .live .. | .xch .. | .vac _ | .setm .. | .recipe .. | .ctxWrite .. | .seed _ | .xst
  | .ecnt _ | .ctxRead _ | .pipe .. | .codex .. | .anchor _ | .mxst _ | .resid .. | .pushRow .. | .feedSum .. | .gfeedSum .. | .clrSum _
  | .clrAcc _ | .spill .. => true
  | _ => false

/-- Whether an event belongs to traffic that a context has sent. -/
def Ev.sent : Ev → Bool
  | .redux .. | .msg .. | .bcast .. | .bcastDone _ | .arm .. | .voidTaken _ => true
  | _ => false

/-! ### Launches and their kernels -/

/-- A queue that no plan has named: the lowest priority, a hash of 64 zero bytes (R252, R260). -/
def queueZero : Queue := ⟨7, List.replicate 64 0, 0, 0, 0⟩

/-- The tasks of a launch that this package runs: all but those a placement table names on other packages (log 1). -/
def Launch.here (x : Launch) : Nat :=
  if x.timed then (x.placement.filter fun p => decide (p.1 < 512)).length else x.tasks

/-- A context is occupied (R265): it holds a task, or entries of one in its phase buffer. -/
def Ctx.occupied (y : Ctx) : Bool := y.task.isSome || !y.pbuf.isEmpty || !y.closed.isEmpty

/-- Whether a start waits for a context. -/
def State.starting (s : State) (c k : Nat) : Bool :=
  s.agenda.any fun p =>
    match p.ev with | .taskStart _ _ c' k' | .waveStart _ _ c' k' => c' == c && k' == k | _ => false

/-- A context is taken for zlaunch (R265): it is occupied, or a task that has been placed on it waits to start. -/
def State.placed (s : State) (c k : Nat) : Bool := (s.ctx c k).occupied || s.starting c k

/-- Whether a context may take a task of a launch (R182): it holds no task, and no entries of another launch. -/
def Ctx.freeFor (y : Ctx) (l : BitVec 64) : Bool := !y.task.isSome && ((y.pbuf.isEmpty && y.closed.isEmpty) || y.pbufLaunch == l)

/-- The contexts of a launch on this package: those that hold its tasks or its buffered entries (R176, R182). -/
def State.ctxsOf (s : State) (l : BitVec 64) : List (Nat × Nat) :=
  s.cores.flatMap fun q => q.2.ctxs.filterMap fun x =>
    let y := x.2
    let buffered := (!y.pbuf.isEmpty || !y.closed.isEmpty) && y.pbufLaunch == l
    if (match y.task with | some t => t.launch == l | none => false) || buffered then some (q.1, x.1) else none

/-! ### The end of a wait -/

/-- Whether a context is in a wait, or will be when a trap that has interrupted it returns (R50). -/
def Ctx.awaits (y : Ctx) (w : Wait) : Bool := y.status == .waiting w || y.held == some w

/-- A wait of a context is over: it goes on at its next bundle, or, under a trap, will do so when the trap returns. -/
def Ctx.endWait (y : Ctx) (w : Wait) : Ctx :=
  { y with status := if y.status = .waiting w then .ready else y.status, held := if y.held = some w then none else y.held }

/-! ### Boundaries -/

/-- The end of a task opens the final boundary, or leaves it to follow the open one (R182). -/
def State.finalBoundary (s : State) (l : BitVec 64) (at_ : Nat) : State :=
  let x := s.launch l
  match x.boundary with
  | some _ => s
  | none =>
    let b : Boundary := ⟨at_, s.gs.hLat, x.lastScope, 0, false, true, false, [], 0⟩
    s.setLaunch l { x with boundary := some b }

/-- The task of a context ends (R20, R247, R258): it leaves the context, counts as completed or faulted, and the last one of the
launch on this package opens the final boundary. A task that ends after its launch was cancelled counts as neither (R259). Its engine
commands run on, and stay among those in flight of the context (R227, R229). -/
def endTask (s : State) (c k : Nat) (ok : Bool) : State :=
  let y := s.ctx c k
  match y.task with
  | none => s
  | some t =>
    let x := s.launch t.launch
    let x := if x.cancelled then x
      else { x with ended := x.ended + 1, endCycle := s.now, gone := x.gone ++ [t.id.toNat]
                    completed := x.completed + (if ok then 1 else 0), faulted := x.faulted + (if ok then 0 else 1) }
    let s := s.setCtx c k { y.abandon with task := none, status := .noTask, held := none, lag := 0, ptrap := none, ldl := none, engWalk := none }
    let s := s.setLaunch t.launch x
    if x.ended = x.here ∧ !x.cancelled then s.finalBoundary t.launch s.now else s

/-- The sendb, bcst, reduction and rclr traffic of a launch that was issued before its boundary opened (R180). -/
def Pending.drains (p : Pending) (l : BitVec 64) (mark : Nat) : Bool :=
  decide (p.seq < mark) && match p.ev with
    | .redux _ _ _ _ l' => l' == l
    | .msg _ _ _ l' => l' == l
    | .bcast _ _ _ _ _ _ _ l' => l' == l
    | _ => false

/-- Whether a closed boundary is complete (R180). -/
def State.boundaryDone (s : State) (l : BitVec 64) (b : Boundary) : Bool :=
  b.closed && decide (b.merged ≤ s.clock) && !(s.agenda.any fun p => p.drains l b.mark)

/-- Whether a closed boundary will be complete when the count reaches c + W' (R180). -/
def State.boundaryInTime (s : State) (l : BitVec 64) (b : Boundary) : Bool :=
  let left := b.opened + b.window - s.now
  decide (b.merged ≤ s.clock + left) &&
    !(s.agenda.any fun p => p.drains l b.mark && decide (s.time p.onClock + left < p.due))

/-- MERGE_OVERRUN (R180): when the boundary will not be complete at c + W', a group hold is requested and counted. -/
def overrunBoundary (s : State) (l : BitVec 64) : State :=
  let x := s.launch l
  match x.boundary with
  | none => s
  | some b =>
    if s.boundaryInTime l b then s
    else (s.setLaunch l { x with ovr := satInc x.ovr, boundary := some { b with overrun := true } }).requestHold 2 none

/-- The entries of the contexts of a launch are closed and their merge begins (R176, R180): it finishes at a free time within
64 + P clocks, and the package requests a hold at c + W' - H if it is not done in time: at c itself where W' is H. -/
def closeBoundary (s : State) (l : BitVec 64) : State :=
  let x := s.launch l
  match x.boundary with
  | none => s
  | some b =>
    let cs := s.ctxsOf l
    let s := cs.foldl (fun s q =>
      let y := s.ctx q.1 q.2
      s.setCtx q.1 q.2 { y with closed := y.closed ++ y.pbuf, pbuf := [] }) s
    let es := cs.flatMap fun q => (s.ctx q.1 q.2).closed
    let p := (List.range 64).foldl (fun m sl => max m (es.countP fun e => s.slice e.pa == sl)) 0
    let (d, s) := s.draw
    let s := s.setLaunch l { x with boundary := some { b with closed := true, merged := s.clock + d % (65 + p), mark := s.free } }
    if b.window ≤ s.gs.hLat then overrunBoundary s l else s.post (b.opened + b.window - s.gs.hLat) false 0 0 (.overrun l)

/-- A claim whose launches have all had their boundary lasts while an exchange, vac or setm of its core in the folio is in flight
(R183), or a route command of the core writes the folio (R240). -/
def State.claimLasts (s : State) (folio : Nat) (cl : Claim) : Bool :=
  !cl.launches.isEmpty || s.routeHolds cl.core folio ||
    s.agenda.any fun p => p.core == cl.core && p.ev.places.any fun q =>
      q.1.lvl == 2 && decide (q.1.pa / 16384 ≤ folio ∧ folio ≤ (q.1.pa + q.2 - 1) / 16384)

/-- The claims that are over are dropped. -/
def dropClaims (s : State) : State := { s with claims := s.claims.filter fun q => s.claimLasts q.1 q.2 }

/-- The claims made for a launch are released (R183). -/
def releaseClaims (s : State) (l : BitVec 64) : State :=
  dropClaims { s with claims := s.claims.map fun q => (q.1, { q.2 with launches := q.2.launches.filter fun m => m != l }) }

/-- The bytes of a part that two entries of different tasks write. -/
def conflictOf (a b : PbEntry) : BitVec 16 := if a.task = b.task then 0 else a.mask &&& b.mask

/-- A merge of a part (R179): the entries in ascending task, without the bytes that two tasks wrote in a strict launch. -/
def mergePart (strict : Bool) (es : List PbEntry) (s : State) : State :=
  es.foldl (fun s e =>
    let clash := if strict then es.foldl (fun m o => m ||| conflictOf e o) 0 else 0
    let e' := { e with mask := e.mask &&& ~~~clash }
    s.putCells 2 0 e'.cells (if e.mask = e'.mask then e.pois else if e.poison then [(e.pa / 16, true)] else [])) s

/-- The distinct parts of entries: virtual and physical address of each. -/
def entryParts (es : List PbEntry) : List (Nat × Nat) := (es.map fun e => (e.va, e.pa)).dedup

/-- The contribution of a part to a digest (R181). -/
def digestPart (s : State) (q : Nat × Nat) : BitVec 64 :=
  let w := fun (i : Nat) => BitVec.ofNat 64 (wordAt (s.levelByte 2 0) (q.2 + i) 8)
  mix (BitVec.ofNat 64 q.1) (w 0) + mix (BitVec.ofNat 64 q.1 ^^^ 0x5A5A5A5A5A5A5A5A#64) (w 8)

/-- The conflicts of a boundary: task, part address, other task; in ascending part address and other task (R179). -/
def conflictsOf (es : List PbEntry) : List (BitVec 20 × Nat × BitVec 20) :=
  es.flatMap fun e => (es.filter fun o => o.pa / 16 == e.pa / 16 && conflictOf e o != 0).map fun o => (e.task, e.va, o.task)

/-- The least of a task's conflicts. -/
def leastConflict (t : BitVec 20) (cs : List (BitVec 20 × Nat × BitVec 20)) : Option (Nat × BitVec 20) :=
  cs.foldl (fun m x =>
    if x.1 ≠ t then m
    else
      match m with
      | none => some x.2
      | some y => if x.2.1 < y.1 ∨ (x.2.1 = y.1 ∧ x.2.2.toNat < y.2.toNat) then some x.2 else m) none

/-- BOUNDARY_COMPLETE (R179 to R183): the closed entries are merged and the digest takes their parts, conflicts are counted and
trapped, a task that has been saved taking its trap when it resumes; the claims of the launch are released, the phase number increments,
and waiting contexts go on. The entries of a cancelled launch are discarded (R261). -/
def completeBoundary (s : State) (l : BitVec 64) : State :=
  let x := s.launch l
  match x.boundary with
  | none => s
  | some b =>
    let cs := s.ctxsOf l
    let es := if x.cancelled then []
      else (sortEntries (cs.flatMap fun q => (s.ctx q.1 q.2).closed.map fun e => (l, e))).map Prod.snd
    let s := cs.foldl (fun s q => s.setCtx q.1 q.2 { s.ctx q.1 q.2 with closed := [] }) s
    let parts := entryParts es
    let s := parts.foldl (fun s q => mergePart x.strict (es.filter fun e => e.pa == q.2) s) s
    let confl := if x.strict then conflictsOf es else []
    let s := cs.foldl (fun s q =>
      let y := s.ctx q.1 q.2
      match leastConflict y.taskId confl with
      | some (va, o) =>
        if y.task.isSome && y.status != .halted then
          s.setCtx q.1 q.2 { y with ptrap := some (0x0D, BitVec.ofNat 64 va, o.zeroExtend 64) }
        else s
      | none => s) s
    let s := cs.foldl (fun s q =>
      let y := s.ctx q.1 q.2
      if y.awaits .boundary ∧ y.launch = l then s.setCtx q.1 q.2 (y.endWait .boundary) else s) s
    let n := (confl.map fun c => (c.1, c.2)).dedup.length
    let away := ((s.ctl.saved.filter fun q => q.1 == l).map fun q => q.2.1).filterMap fun t =>
      (leastConflict t confl).map fun q => (t, (0x0D#6, BitVec.ofNat 64 q.1, q.2.zeroExtend 64))
    let x := { x with
      boundary := none, phase := x.phase + 1, digest := parts.foldl (fun d q => d + digestPart s q) x.digest
      conflict := x.conflict || !confl.isEmpty, faults := min 0xFFFFFFFF (x.faults + n)
      conflicts := x.conflicts ++ confl.map fun c => (c.1, BitVec.ofNat 48 c.2.1, c.2.2), ptraps := x.ptraps ++ away }
    let s := releaseClaims (s.setLaunch l x) l
    let s := if b.overrun then s.noticeNow 2 else s
    if b.final then s.post s.clock true 0 0 (.launchDone l)
    else if x.ended = x.here ∧ !x.cancelled then s.finalBoundary l (s.now + 1)
    else s

/-! ### The start of a task (R7, R85, R165, R246) -/

/-- A pinned entry of the launch covers a page already. -/
def Core.pinsOf (x : Core) (l : BitVec 64) : List Tlb := x.tlb.filter fun e => e.pinned == some l

/-- The context of a task at its start (R7). A task of a free launch runs as a free one, even where its .ctx directive is timed, which no
rule speaks of (log 51). The engine commands of an earlier task are still in flight for the context (R227). -/
def startCtx (old : Ctx) (x : Launch) (k : Kernel) (t : Nat) (l : BitVec 64) (prio : BitVec 3) (clock : Nat) : Ctx :=
  let d := k.ctxOf t
  { Ctx.zero with
    regs := { Regs.zero with budget := x.budget, recipe := k.recipes, spill := { Spill.zero with cfol := d.cfol, cbase := d.cbase } }
    pc := d.entry + BitVec.ofNat 13 k.base
    seed := x.seed
    infl := old.infl, pbuf := old.pbuf, closed := old.closed, pbufLaunch := if old.occupied then old.pbufLaunch else l
    task := some { launch := l, id := BitVec.ofNat 20 t, timed := x.timed && d.timed, prio := prio, supervisor := x.supervisor }
    status := .ready, readyAt := clock }

/-- Whether an event is a service that a context waits for, or has posted (R54). -/
def Ev.isService : Ev → Bool
  | .service .. => true
  | _ => false

/-- What an earlier task of context `k` has in flight stays in flight for no context: it is kept under number 4 + `k`. -/
def orphan (c k : Nat) (p : Pending) : Pending :=
  if p.core == c && p.ctx == k && (p.ev.ofBundle || p.ev.sent || p.ev.isService) then { p with ctx := 4 + k } else p

/-- TASK_START and WAVE_START (R7, R8, R250): the task starts on its context, unless the launch was cancelled, the dies have been powered
down (R308), the core is out of service (its task then ends as faulted), or, for a wave, the context has been taken. -/
def startTask (s : State) (l : BitVec 64) (t c k : Nat) : State :=
  let x := s.launch l
  let y := s.ctx c k
  if x.cancelled || s.out.stage == 3 then s
  else if !y.freeFor l then s
  else
    let x' := { x with started := x.started ++ [(t, c, k)], t0 := if x.started.isEmpty && !x.timed then s.now else x.t0
                       waves := x.waves.filter fun w => w.1 != t }
    let prio := (mget s.ctl.queues queueZero x.queue.toNat).prio
    let s := { s with agenda := s.agenda.map (orphan c k) }
    let s := (s.setLaunch l x').setCtx c k (startCtx y x (s.kernelOf x) t l prio s.clock)
    let s := if (s.core c).retired then s.setLaunch l { s.launch l with coreLost := true } else s
    if (s.core c).retired || (s.core c).oos then endTask s c k false else s

/-! ### Retirement (R219, R288) -/

/-- The core is retired: every context of it takes "core failed" and its task ends as faulted, an open rollback request ends at
once, its frames arrive void. -/
def retireCore (s : State) (c : Nat) : State :=
  let s := (List.range 4).foldl (fun s k =>
    let y := s.ctx c k
    if y.task.isSome then
      let s := if y.timed && y.region.stage != 0 then s.noticeHold 0 (some y.region.detectClock) (s.clock - y.region.detectClock) else s
      let l := y.launch
      let s := s.setLaunch l { s.launch l with coreLost := true }
      endTask (raiseTrap s c k (trapOf 0x18 0 0) y.pc y.pc) c k false
    else s) s
  s.setCore c { s.core c with retired := true, oos := true, running := none }

end Sys2Proof.Machine
end

