-- ==== Sys2Proof/Machine/Landed.lean ====
section
/-! DEFINITION. What an operation in flight does when it lands: results (R30, R72, R89, R174), the record of a burst (R86), and the swap of an
exchange (R77, R78, R82). -/

namespace Sys2Proof.Machine

/-- The 64-bit words of a bus value. -/
def LVal.words : LVal → List (BitVec 64)
  | .s x => [x.val]
  | .v x => (List.range 64).map fun i => x.bits.extractLsb' (64 * i) 64

/-- The environment of an operation in flight. -/
def envAt (s : State) (c k : Nat) (pc : BitVec 13) : Env :=
  let y := s.ctx c k
  { s := s, c := c, k := k, y := y, r := y.regs, limm := 0, pc := pc, slot := 0 }

/-! ### Results (R30, R217) -/

/-- An open region's signature will take a value that lands under a code, at the end of this clock (R217). -/
def Ctx.signLand (y : Ctx) (code : Nat) (v : LVal) : Ctx :=
  if y.region.isOpen then { y with region := { y.region with landed := y.region.landed ++ [(code, v.words)] } } else y

/-- A value lands in a latch of a context. -/
def Ctx.landOne (y : Ctx) (f latch : Nat) : Option LVal → Ctx
  | some v =>
    ({ y with regs := y.regs.land f latch v }.mend (0x100 + 8 * f + latch)).signLand (0x400 + 8 * f + latch) v
  | none => y

/-- z and y land in the latches of unit `f`, and flags are ORed in (R30, R97). -/
def landAt (s : State) (c k f : Nat) (z y : Option LVal) (fl : BitVec 5) : State :=
  if 4 ≤ k then s
  else
    let x := ((s.ctx c k).landOne f 0 z).landOne f 1 y
    s.setCtx c k { x with regs := { x.regs with flags := x.regs.flags ||| fl } }

/-- The older stores of the context to a level that are still in flight lose what a younger one has written: the order of issue stands
over that of landing (R89, R163). -/
def supersede (s : State) (p : Pending) (cell part : Nat → Bool) : State :=
  { s with agenda := s.agenda.map fun q =>
      match q.ev with
      | .write cs ps dig =>
        if q.own p.core p.ctx && q.lvl == p.lvl && decide (q.seq < p.seq) then
          { q with ev := .write (cs.filter fun c => !cell c.1) (ps.filter fun x => !part x.1) dig }
        else q
      | _ => q }

/-- A store lands in its level (R69, R89), where the contents that it writes now lie (R78). -/
def landWrite (s : State) (p : Pending) (cells : List (Nat × Byte)) (pois : List (Nat × Bool)) : State :=
  supersede (s.writeAs p.core p.ctx p.lvl p.core cells pois) p (fun a => cells.any fun c => c.1 == a) (fun i => pois.any fun x => x.1 == i)

/-- The parts that an early application wrote contribute to their launch's digest (R181, R184). -/
def landDigest (s : State) (dig : Option (BitVec 64 × List (Nat × Nat))) : State :=
  match dig with
  | some (l, parts) =>
    s.setLaunch l { s.launch l with digest := parts.foldl (fun d q => d + digestPart s q) (s.launch l).digest }
  | none => s

/-- The state as an operation in flight finds it: without the younger operations of its context (R89). -/
def State.asOf (s : State) (p : Pending) : State :=
  { s with agenda := s.agenda.filter fun q => !(q.own p.core p.ctx) || decide (q.seq < p.seq) }

/-- cas at its landing (R72): the word is read, behind the older stores of its context (R89), and, when it equals b, written; z takes the
old word. -/
def landCas (s : State) (p : Pending) (a : Nat) (b t : BitVec 64) : State :=
  let old := BitVec.ofNat 64 ((s.asOf p).viewN p.core p.ctx 1 a 8)
  let bad := (s.asOf p).viewPoison p.core p.ctx 1 a
  let s := if old = b then
      (supersede (s.writeAs p.core p.ctx 1 p.core (cellsOf a 8 t.toNat) []) p (fun x => decide (a ≤ x ∧ x < a + 8)) (fun _ => false)).signStore
        p.core p.ctx (cellsOf a 8 t.toNat)
    else s
  landAt s p.core p.ctx 5 (some (.s ⟨old, 0, bad⟩)) none 0

/-- Updates a context. -/
def State.onCtx (s : State) (c k : Nat) (f : Ctx → Ctx) : State := if 4 ≤ k then s else s.setCtx c k (f (s.ctx c k))

/-- The result of an operation lands (R30). -/
def landEvent (p : Pending) (s : State) : State :=
  let c := p.core
  let k := p.ctx
  let y := s.ctx c k
  match p.ev with
  | .land f z y fl => landAt s c k f z y fl
  | .write cells pois dig => landDigest (landWrite s p cells pois) dig
  | .cas a b t => landCas s p a b t
  | .fill reg v => s.onCtx c k fun y => ({ y with regs := { y.regs with v := mput y.regs.v reg v } }.mend (0x40 + reg)).signLand (0x40 + reg) (.v v)
  | .live i cx v bad => s.onCtx c k fun y => { y with ldl := y.ldl.map fun r => r.take i cx v bad }
  | .recipe i v =>
    let s := landAt s c k 21 (some (raw ((mget y.regs.recipe 0 i).zeroExtend 64))) none 0
    s.onCtx c k fun y => { y with regs := { y.regs with recipe := mput y.regs.recipe i v } }
  | .ctxRead i =>
    let n := (i.extractLsb' 0 8).toNat
    landAt s c k 21 (some (raw (s.ctxItem c k n))) (some (raw (if n > 8 || (i.getLsbD 8 && n ≥ 4) then 1 else 0))) 0
  | .ctxWrite i t => s.onCtx c k fun y => y.writeItem i t
  | .seed v =>
    let s := landAt s c k 21 (some (raw y.seed)) (some (raw 0)) 0
    s.onCtx c k fun y => { y with seed := v }
  | .xst => landAt s c k 16 (some (raw y.regs.xcnt)) (some (raw (BitVec.ofNat 64 (s.xuOwn c k)))) 0
  | .ecnt i =>
    landAt s c k 17 (some (raw (if i.getLsbD 3 then y.engineWord else mget y.ecnt 0 (i.toNat % 8)))) none 0
  | .arm i a =>
    let s := landAt s c k 17 (some (raw (mget y.arr Arrival.zero i).word)) none 0
    s.onCtx c k fun y => { y with arr := mput y.arr i a }
  | .pipe i f v =>
    let (a, old) := (s.core c).arr.setPipe i f v
    landAt (s.setArr c a) c k 20 none (old.map raw) 0
  | .codex i v ok =>
    let a := (s.core c).arr
    s.setArr c { a with pipes := mput a.pipes i { a.pipe i with codex := v, cv := ok } }
  | .anchor v =>
    let a := (s.core c).arr
    landAt (s.setArr c { a with anchor := v }) c k 20 none (some (raw (a.anchor.signExtend 64))) 0
  | .mxst i => landAt s c k 20 none (some (raw ((s.core c).arr.item i))) 0
  | .resid i v =>
    let a := (s.core c).arr
    landAt (s.setArr c { a with resid := mput a.resid i v }) c k 20 none (some (raw (a.item (11 + i)))) 0
  | .voidTaken i =>
    let x := s.port i
    { s with ports := mput s.ports i { x with vtaken := true, voids := satInc x.voids } }
  | _ => s

/-! ### Spill records (R86) -/

/-- The record of a burst that is reached (R86): its checks, then the store or the load. A free context's record waits for a free bank
cycle as its bundle does (log 50). y lands with the record issued last, even where an earlier one in the overflow area lands later (DEDUCED,
log 23). -/
def spillOne (e : Env) (s : State) (f : Nat) (fill : Bool) (reg : Nat) (v : VVal) (tag : Tag) (last : Bool) : Except Trap State := do
  let x := e.y.regs.spill
  let d := x.depth.toNat
  let lands := fun (s : State) (lat extra d' : Nat) =>
    let s := s.onCtx e.c e.k fun y => { y with regs := { y.regs with spill := { y.regs.spill with depth := BitVec.ofNat 64 d' } } }
    if last then s.pend e.c e.k 0 false lat extra (.land f none (some (raw (BitVec.ofNat 64 d'))) 0) else s
  if fill then
    trapIf (decide (d < 512)) (trapOf 0x14 x.depth 0)
    let (lvl, pa, pe) ← spillCheck e x (d - 512) false
    let a := (x.addr (d - 512)).toNat
    let r := e.lanesAt lvl (fun l => byteAt a 512 pa pe (4 * l))
    let r := { r with tag := tag, mark := tag == 6 && badE9 r.bits }
    let (ex, s) := e.extra ((s.touchBank e.y.timed lvl pa).useBank e.c e.k lvl) lvl
    let s := s.pend e.c e.k lvl false (e.vlat lvl [pa, pe]) ex (.fill reg r)
    return lands s (e.vlat lvl [pa, pe]) ex (d - 512)
  else
    let (lvl, pa, pe) ← spillCheck e x d true
    let a := (x.addr d).toNat
    let bs : List SByte := (List.range 512).map fun i =>
      ⟨a + i, byteAt a 512 pa pe i, v.bits.extractLsb' (8 * i) 8, v.poison.getLsbD (i / 4)⟩
    let s ← e.store (s.useBank e.c e.k lvl) lvl (e.vlat lvl [pa, pe]) bs
    return lands s (e.vlat lvl [pa, pe]) 0 (d + 512)

/-! ### Exchanges (R77, R78, R82) -/

/-- A byte's place after the swap of two ranges. -/
def swapPlace (l1 c1 a1 l2 c2 a2 n : Nat) (lvl core a : Nat) : Nat × Nat :=
  if lvl = l1 ∧ (lvl ≠ 1 ∨ core = c1) ∧ a1 ≤ a ∧ a < a1 + n then (l2, a2 + (a - a1))
  else if lvl = l2 ∧ (lvl ≠ 1 ∨ core = c2) ∧ a2 ≤ a ∧ a < a2 + n then (l1, a1 + (a - a2))
  else (lvl, a)

/-- The context's own stores that were issued before an exchange, and have yet to land, go where the exchange has moved their
bytes (R89). -/
def retarget (s : State) (p : Pending) (n : Nat) (a b : Loc) : State :=
  let move := fun (q : Pending) =>
    match q.ev with
    | .write cells pois dig =>
      if q.own p.core p.ctx && decide (q.seq < p.seq) && dig.isNone then
        let at_ := fun (x : Nat) => swapPlace a.lvl a.core a.pa b.lvl b.core b.pa n q.lvl q.core x
        ([1, 2, 3].filter fun lvl => cells.any fun c => (at_ c.1).1 == lvl).map fun lvl =>
          { q with lvl := lvl
                   ev := .write ((cells.map fun c => ((at_ c.1), c.2)).filterMap fun c => if c.1.1 = lvl then some (c.1.2, c.2) else none)
                     ((pois.map fun x => (at_ (16 * x.1), x.2)).filterMap fun x =>
                       if x.1.1 = lvl then some (x.1.2 / 16, x.2) else none) dig }
      else [q]
    | _ => [q]
  { s with agenda := s.agenda.flatMap move }

/-- Marks and blank flags of two folios change places, as they stood in `old`. -/
def swapMarks (old s : State) (a b : Loc) : State :=
  let x := s.mem.level a.lvl a.core
  let z := s.mem.level b.lvl b.core
  let put := fun (s : State) (l : Loc) (m : BitVec 32) (u : Bool) =>
    let y := s.mem.level l.lvl l.core
    let f := l.pa / 16384
    let y := { y with marks := if m = 0xFFFFFFFF#32 then mdel y.marks f else mput y.marks f m
                      used := if u then mput y.used f true else mdel y.used f }
    { s with mem := s.mem.setLevel l.lvl l.core y }
  put (put s a (z.mark b.pa) (!old.blankAt b)) b (x.mark a.pa) (!old.blankAt a)

/-- An exchange completes (R77): the swaps stand, and marks and blank flags move for folios. -/
def doExchange (s : State) (leaf : Bool) (a b : Loc) : State :=
  let n := if leaf then 256 else 16384
  if a.lvl = b.lvl ∧ a.core = b.core ∧ a.pa = b.pa then s
  else
    let old := s
    let s := s.swapRange a.lvl a.core a.pa b.lvl b.core b.pa n
    if leaf then s
    else
      let keep := fun (s : State) (l : Loc) (m : Mem) =>
        let y := s.mem.level l.lvl l.core
        { s with mem := s.mem.setLevel l.lvl l.core { y with used := (m.level l.lvl l.core).used } }
      swapMarks old (keep (keep s a old.mem) b old.mem) a b

/-- The count, z and y of a completed exchange of context (c, k). -/
def xchLands (s : State) (c k : Nat) (a b : Loc) : State :=
  let s := s.onCtx c k fun y => { y with regs := { y.regs with xcnt := y.regs.xcnt + 1 } }
  landAt s c k 16 (some (raw ((s.markAt a).zeroExtend 64))) (some (raw ((s.markAt b).zeroExtend 64))) 0

/-- What an operation in flight of a bundle does, on its own, when it is due. -/
def landNow (p : Pending) (s : State) : State :=
  match p.ev with
  | .spill f fill reg v tag last pc _ =>
    match spillOne (envAt s p.core p.ctx pc) s f fill reg v tag last with
    | .ok s => s
    | .error _ => s
  | .xch leaf a b =>
    xchLands (retarget (doExchange s leaf a b) p (if leaf then 256 else 16384) a b) p.core p.ctx a b
  | _ => landEvent p s

end Sys2Proof.Machine
end

