-- ==== Sys2Proof/Machine/Issue.lean ====
section
/-! DEFINITION. The issue of a bundle: its legality (R31, R32), its waits (R18, R83, R174, R213 to R216, R291), its five steps
(R29), its trap or its commit (R63, R64, R272, R273), and checkpoint regions with their rollback (R212 to R220). -/

namespace Sys2Proof.Machine

/-! ### Bundles -/

/-- The operation of a unit (R34). -/
def unitOp (f o : Nat) : Option Op :=
  match f, o with
  | 0, 0 => some (opAdd 0)
  | 2, 0 => some (opAdd 2)
  | 0, 1 => some (opSub 0)
  | 2, 1 => some (opSub 2)
  | 0, 2 => some (opAnd 0)
  | 2, 2 => some (opAnd 2)
  | 0, 3 => some (opOr 0)
  | 2, 3 => some (opOr 2)
  | 0, 4 => some (opXor 0)
  | 2, 4 => some (opXor 2)
  | 0, 5 => some (opAndn 0)
  | 2, 5 => some (opAndn 2)
  | 0, 6 => some (opShl 0)
  | 2, 6 => some (opShl 2)
  | 0, 7 => some (opShr 0)
  | 2, 7 => some (opShr 2)
  | 0, 8 => some (opSar 0)
  | 2, 8 => some (opSar 2)
  | 0, 9 => some (opMin 0)
  | 2, 9 => some (opMin 2)
  | 0, 10 => some (opMax 0)
  | 2, 10 => some (opMax 2)
  | 0, 11 => some (opMinu 0)
  | 2, 11 => some (opMinu 2)
  | 0, 12 => some (opMaxu 0)
  | 2, 12 => some (opMaxu 2)
  | 0, 13 => some (opSel 0)
  | 2, 13 => some (opSel 2)
  | 0, 14 => some (opPass 0)
  | 2, 14 => some (opPass 2)
  | 0, 15 => some (opHi 0)
  | 2, 15 => some (opHi 2)
  | 1, 0 => some (opCeq 0)
  | 3, 0 => some (opCeq 2)
  | 1, 1 => some (opCne 0)
  | 3, 1 => some (opCne 2)
  | 1, 2 => some (opClt 0)
  | 3, 2 => some (opClt 2)
  | 1, 3 => some (opCltu 0)
  | 3, 3 => some (opCltu 2)
  | 1, 4 => some (opCle 0)
  | 3, 4 => some (opCle 2)
  | 1, 5 => some (opCleu 0)
  | 3, 5 => some (opCleu 2)
  | 1, 6 => some (opClz 0)
  | 3, 6 => some (opClz 2)
  | 1, 7 => some (opCtz 0)
  | 3, 7 => some (opCtz 2)
  | 1, 8 => some (opPopc 0)
  | 3, 8 => some (opPopc 2)
  | 1, 9 => some (opSx8 0)
  | 3, 9 => some (opSx8 2)
  | 1, 10 => some (opSx16 0)
  | 3, 10 => some (opSx16 2)
  | 1, 11 => some (opSx32 0)
  | 3, 11 => some (opSx32 2)
  | 1, 12 => some (opZx32 0)
  | 3, 12 => some (opZx32 2)
  | 1, 13 => some (opBext 0)
  | 3, 13 => some (opBext 2)
  | 1, 14 => some (opBins 0)
  | 3, 14 => some (opBins 2)
  | 1, 15 => some (opAdds 0)
  | 3, 15 => some (opAdds 2)
  | 4, 0 => some opMul
  | 4, 1 => some opMulh
  | 4, 2 => some opMulhu
  | 4, 3 => some opDiv
  | 4, 4 => some opDivu
  | 4, 5 => some opRem
  | 4, 6 => some opRemu
  | 4, 7 => some opMix
  | 5, 0 => some opLd8
  | 5, 1 => some opLd8u
  | 5, 2 => some opLd16
  | 5, 3 => some opLd16u
  | 5, 4 => some opLd32
  | 5, 5 => some opLd32u
  | 5, 6 => some opLd64
  | 5, 7 => some opSt8
  | 5, 8 => some opSt16
  | 5, 9 => some opSt32
  | 5, 10 => some opSt64
  | 5, 11 => some opCas
  | 5, 12 => some opLdlive
  | 6, 0 => some (opVld 6)
  | 7, 0 => some (opVld 7)
  | 6, 1 => some (opVldp 6)
  | 7, 1 => some (opVldp 7)
  | 6, 2 => some (opVlds 6)
  | 7, 2 => some (opVlds 7)
  | 6, 3 => some (opVldb 6)
  | 7, 3 => some (opVldb 7)
  | 6, 4 => some (opVgat 6)
  | 7, 4 => some (opVgat 7)
  | 6, 5 => some (opVst 6)
  | 7, 5 => some (opVst 7)
  | 6, 6 => some (opVstp 6)
  | 7, 6 => some (opVstp 7)
  | 6, 7 => some (opVsts 6)
  | 7, 7 => some (opVsts 7)
  | 6, 8 => some (opVsct 6)
  | 7, 8 => some (opVsct 7)
  | 6, 9 => some (opVspl 6)
  | 7, 9 => some (opVspl 7)
  | 6, 10 => some (opVfil 6)
  | 7, 10 => some (opVfil 7)
  | 8, 0 => some (opFadd 8)
  | 10, 0 => some (opFadd 10)
  | 8, 1 => some (opFsub 8)
  | 10, 1 => some (opFsub 10)
  | 8, 2 => some (opFmul 8)
  | 10, 2 => some (opFmul 10)
  | 8, 3 => some (opFfma 8)
  | 10, 3 => some (opFfma 10)
  | 8, 4 => some (opFmin 8)
  | 10, 4 => some (opFmin 10)
  | 8, 5 => some (opFmax 8)
  | 10, 5 => some (opFmax 10)
  | 8, 6 => some (opFabs 8)
  | 10, 6 => some (opFabs 10)
  | 8, 7 => some (opFneg 8)
  | 10, 7 => some (opFneg 10)
  | 8, 8 => some (opFcmp 8)
  | 10, 8 => some (opFcmp 10)
  | 8, 9 => some (opFcvti 8)
  | 10, 9 => some (opFcvti 10)
  | 8, 10 => some (opIcvtf 8)
  | 10, 10 => some (opIcvtf 10)
  | 8, 11 => some (opFsel 8)
  | 10, 11 => some (opFsel 10)
  | 8, 12 => some (opFrnd 8)
  | 10, 12 => some (opFrnd 10)
  | 9, 0 => some (opIadd 8)
  | 11, 0 => some (opIadd 10)
  | 9, 1 => some (opIsub 8)
  | 11, 1 => some (opIsub 10)
  | 9, 2 => some (opImul 8)
  | 11, 2 => some (opImul 10)
  | 9, 3 => some (opVand 8)
  | 11, 3 => some (opVand 10)
  | 9, 4 => some (opVor 8)
  | 11, 4 => some (opVor 10)
  | 9, 5 => some (opVxor 8)
  | 11, 5 => some (opVxor 10)
  | 9, 6 => some (opVshl 8)
  | 11, 6 => some (opVshl 10)
  | 9, 7 => some (opVshr 8)
  | 11, 7 => some (opVshr 10)
  | 9, 8 => some (opVsar 8)
  | 11, 8 => some (opVsar 10)
  | 9, 9 => some (opImin 8)
  | 11, 9 => some (opImin 10)
  | 9, 10 => some (opImax 8)
  | 11, 10 => some (opImax 10)
  | 9, 11 => some (opIcmp 8)
  | 11, 11 => some (opIcmp 10)
  | 9, 12 => some (opLbc 8)
  | 11, 12 => some (opLbc 10)
  | 9, 13 => some (opLperm 8)
  | 11, 13 => some (opLperm 10)
  | 9, 14 => some (opXcl 8)
  | 11, 14 => some (opXcl 10)
  | 9, 15 => some (opLred 8)
  | 11, 15 => some (opLred 10)
  | 12, 0 => some (opVtTri 0)
  | 12, 1 => some (opVtTri 1)
  | 12, 2 => some (opVtTri 2)
  | 12, 3 => some (opVtTri 3)
  | 12, 4 => some (opVtTri 4)
  | 12, 5 => some (opVtTri 5)
  | 12, 6 => some (opVtTri 6)
  | 12, 7 => some (opVtTri 7)
  | 12, 8 => some (opVtTri 8)
  | 12, 9 => some (opVtTri 9)
  | 12, 10 => some (opVtTri 10)
  | 12, 11 => some (opVtTri 11)
  | 12, 12 => some (opVtTri 12)
  | 12, 13 => some (opVtTri 13)
  | 12, 14 => some (opVtTri 14)
  | 12, 15 => some (opVtTri 15)
  | 13, 0 => some opRcpa
  | 13, 1 => some opRsqa
  | 13, 2 => some opRcpn
  | 13, 3 => some opRsqn
  | 13, 4 => some opExp2a
  | 13, 5 => some opLog2a
  | 13, 6 => some opFsqrt
  | 13, 7 => some opFdiv
  | 13, 8 => some opFscl
  | 13, 9 => some opFexp
  | 14, 0 => some opBmax
  | 14, 1 => some opQnt
  | 14, 2 => some opDqt
  | 14, 3 => some opCvb
  | 14, 4 => some opCvf
  | 14, 5 => some opCvsb
  | 14, 6 => some opCvub
  | 14, 7 => some opFret
  | 14, 8 => some opPack
  | 14, 9 => some opUnpk
  | 14, 10 => some opVtag
  | 16, 0 => some opXch
  | 16, 1 => some opXchc
  | 16, 2 => some opXchl
  | 16, 3 => some opXchlc
  | 16, 4 => some opMark
  | 16, 5 => some opVac
  | 16, 6 => some opSetm
  | 16, 7 => some opXst
  | 17, 0 => some opSidx
  | 17, 1 => some opSred
  | 17, 2 => some opStopk
  | 17, 3 => some opRpfx
  | 17, 4 => some opRprm
  | 17, 5 => some opBcst
  | 17, 6 => some opArm
  | 17, 7 => some opEcnt
  | 18, 0 => some opRadd
  | 18, 1 => some opRmin
  | 18, 2 => some opRmax
  | 18, 3 => some opRand
  | 18, 4 => some opRor
  | 18, 5 => some opRxor
  | 18, 6 => some opRfadd
  | 18, 7 => some opRrd
  | 18, 8 => some opRclr
  | 18, 9 => some opSend
  | 18, 10 => some opRecv
  | 18, 11 => some opSendb
  | 18, 12 => some opRecvb
  | 20, 0 => some opFbase
  | 20, 1 => some opFstr
  | 20, 2 => some opFcdx
  | 20, 3 => some opFprog
  | 20, 4 => some opPbase
  | 20, 5 => some opPstr
  | 20, 6 => some opAnch
  | 20, 7 => some opLive
  | 20, 8 => some opResid
  | 20, 9 => some opSfst
  | 20, 10 => some opGmode
  | 20, 11 => some opMxst
  | 21, 1 => some opBudg
  | 21, 2 => some opGcyc
  | 21, 3 => some opCtx
  | 21, 4 => some opTrld
  | 21, 5 => some opSbase
  | 21, 6 => some opSeed
  | 21, 7 => some opLparm
  | 21, 0 => some trecOp
  | _, _ => none

/-- A move slot in use: its slot, guard, source, destination, and the operation it triggers. -/
structure Mv where
  slot : Nat
  g : BitVec 4
  src : BitVec 10
  dst : BitVec 10
  op : Option Op

/-- A bundle: its word, moves, beat and control slot, CK bit, long immediate, and its offending-slot mask (R21, R32). -/
structure Bundle where
  word : BitVec 256
  mvs : List Mv
  beat : Option (BitVec 4 × Beat)
  ctl : Option (BitVec 4 × Ctl)
  ck : Bool
  limm : BitVec 64
  bad : BitVec 11

/-- The unit that a trigger destination reaches (R28). -/
def trigUnit (d : BitVec 10) : Nat := fuOf ((d.toNat - 0x200) / 16)

/-- A destination with page-A and page-B names of a port or of a unit's trigger made one (R32). -/
def dstName (d : BitVec 10) : Nat :=
  let n := d.toNat
  if n < 0x100 then n
  else if n < 0x200 then 0x100 + 8 * fuOf ((n - 0x100) / 8) + n % 8
  else 0x200 + trigUnit d

/-- Whether a move word is at fault by itself in its slot (R24, R27, R28, R32). -/
def moveBad (slot : Nat) (w : BitVec 24) : Bool :=
  let bus := decide (slot < 4)
  let s := w.extractLsb' 10 10
  let d := w.extractLsb' 0 10
  let cls := if d.toNat < 0x200 then dstClass d
    else if (trigInstr ((d.toNat - 0x200) / 16) (d.toNat % 16) 0 s).isSome then some (trigClass ((d.toNat - 0x200) / 16)) else none
  cls != some bus || !srcOk bus s

/-- The move slots in use: slot and word. -/
def usedSlots (b : BitVec 256) : List (Nat × BitVec 24) :=
  ((List.range 8).map fun k => (k, bundleMove b k)).filter fun x => x.2 != 0

/-- The register that a control word writes (R47): the link of call and calli, whatever its unused bits hold. -/
def ctlLink (w : BitVec 32) : Option Nat :=
  if w.extractLsb' 26 6 = 2 then some (w.extractLsb' 16 6).toNat
  else if w.extractLsb' 26 6 = 5 then some (w.extractLsb' 10 6).toNat
  else none

/-- Whether a control word forms a long immediate, whatever its guard (R26). -/
def formsLimm (i : Option Instr) : Bool :=
  match i with
  | some (.limm _ _) => true
  | some (.limmh _ _) => true
  | _ => false

/-- The slots of the moves that read #L, when the control slot forms none (R26): with them the control slot is at fault. -/
def strayLimm (ms : List (Nat × BitVec 24)) (ctl : Option Instr) : List Nat :=
  if formsLimm ctl then [] else (ms.filter fun x => x.2.extractLsb' 10 10 == 0x300#10).map Prod.fst

/-- The offending-slot mask of a bundle (R26, R32). -/
def illegalMask (b : BitVec 256) : BitVec 11 :=
  let ms := usedSlots b
  let ctl := (decodeCtl (bundleCtl b)).toOption
  let name := fun (w : BitVec 24) => dstName (w.extractLsb' 0 10)
  let stray := strayLimm ms ctl
  let mv := ms.foldl (fun (m : BitVec 11) x =>
    setBit m x.1 (moveBad x.1 x.2 || stray.contains x.1 || ms.any (fun y => y.1 != x.1 && name y.2 == name x.2)
      || ctlLink (bundleCtl b) == some (name x.2))) 0
  let c := ctl.isNone || !stray.isEmpty || ms.any fun x => ctlLink (bundleCtl b) == some (name x.2)
  let be := !beatNop (bundleBeat b) && (decodeBeat (bundleBeat b)).toOption.isNone
  setBit (setBit (setBit mv 9 c) 8 be) 10 (bundleHdr b != 0)

/-- The guard and meaning of a control step. -/
def ctlMeaning : Instr → Option (BitVec 4 × Ctl)
  | .nop g => some (g, ctlNop)
  | .br g o => some (g, ctlBr o)
  | .call g n o => some (g, ctlCall n o)
  | .ret g n => some (g, ctlRet n)
  | .jmpi g n => some (g, ctlJmpi n)
  | .calli g n m => some (g, ctlCalli n m)
  | .limm g _ => some (g, ctlLimm)
  | .limmh g _ => some (g, ctlLimmh)
  | .loop g k n d s r => some (g, ctlLoop k n d s r)
  | .loopi g k n d s r => some (g, ctlLoopi k n d s r)
  | .brk g k => some (g, ctlBrk k)
  | .mpush g n => some (g, ctlMpush n)
  | .mpop g => some (g, ctlMpop)
  | .minv g n => some (g, ctlMinv n)
  | .minvElse g => some (g, ctlMinvElse)
  | .brnone g o => some (g, ctlBrnone o)
  | .brany g o => some (g, ctlBrany o)
  | .waitEng g e n => some (g, ctlWaitEng e n)
  | .waitArr g k => some (g, ctlWaitArr k)
  | .waitXcnt g n => some (g, ctlWaitXcnt n)
  | .waitWeq g n m => some (g, ctlWaitWeq n m)
  | .waitWne g n m => some (g, ctlWaitWne n m)
  | .waitc g n => some (g, ctlWaitc n)
  | .phaseLaunch g w => some (g, ctlPhaseLaunch w)
  | .phaseGroup g w => some (g, ctlPhaseGroup w)
  | .tune g => some (g, ctlTune)
  | .cfence g => some (g, ctlCfence)
  | .sfenceAcq g => some (g, ctlSfenceAcq)
  | .sfenceRel g => some (g, ctlSfenceRel)
  | .sfenceAcqRel g => some (g, ctlSfenceAcqRel)
  | .trap g c => some (g, ctlTrap c)
  | .sysc g n => some (g, ctlSysc n)
  | .halt g => some (g, ctlHalt)
  | .yield g => some (g, ctlYield)
  | .ckend g => some (g, ctlCkend)
  | _ => none

/-- The guard and meaning of a beat step. -/
def beatMeaning : Instr → Option (BitVec 4 × Beat)
  | .push g c row => some (g, beatPush c.toNat row.toNat)
  | .feed g p e acc => some (g, beatFeed 0 p.toNat e.toNat (acc == 1))
  | .feedAbsd g p e acc => some (g, beatFeed 1 p.toNat e.toNat (acc == 1))
  | .feedCmps g p e acc => some (g, beatFeed 2 p.toNat e.toNat (acc == 1))
  | .gfeed g p => some (g, beatGfeed p.toNat)
  | .drain g e => some (g, beatDrain e.toNat)
  | .gdrain g c k => some (g, beatGdrain c.toNat k.toNat)
  | .clr g e => some (g, beatClr e.toNat)
  | .gclr g c => some (g, beatGclr c.toNat)
  | _ => none

/-- The long immediate #L that a control word forms with limm or limmh, whatever its guard (R26, R49): the source #L of every move of the
bundle, which the bundle's environment holds. -/
def limmOf (i : Option Instr) : BitVec 64 :=
  match i with
  | some (.limm _ v) => v.signExtend 64
  | some (.limmh _ v) => v.zeroExtend 64 <<< 22
  | _ => 0

/-- A move slot in use. -/
def mvOf (slot : Nat) (w : BitVec 24) : Mv :=
  let d := w.extractLsb' 0 10
  { slot := slot, g := w.extractLsb' 20 4, src := w.extractLsb' 10 10, dst := d
    op := if d.toNat < 0x200 then none else unitOp ((d.toNat - 0x200) / 16) (d.toNat % 16) }

/-- The bundle of a word (R21, R29). -/
def bundleOfWord (b : BitVec 256) : Bundle :=
  let ctl := (decodeCtl (bundleCtl b)).toOption
  { word := b, mvs := (usedSlots b).map fun x => mvOf x.1 x.2
    beat := if beatNop (bundleBeat b) then none else (decodeBeat (bundleBeat b)).toOption.bind beatMeaning
    ctl := ctl.bind ctlMeaning, ck := bundleCk b, limm := limmOf ctl, bad := illegalMask b }

/-- The bundle that holds one move alone, with the operation it triggers. -/
def bundleOfOp (g : BitVec 4) (s d : BitVec 10) (op : Option Op) : Bundle :=
  let slot := if busOf d then 0 else 4
  { word := bundleOfMove (moveWord g s d), mvs := [⟨slot, g, s, d, op⟩], beat := none, ctl := none, ck := false, limm := 0
    bad := setBit 0 slot (moveBad slot (moveWord g s d) || s == 0x300#10) ||| (if s = 0x300#10 then 0x200 else 0) }

/-- The bundle that holds one beat alone. -/
def bundleOfBeatOp (w : BitVec 28) (g : BitVec 4) (b : Beat) : Bundle :=
  { word := bundleOfBeat w, mvs := [], beat := some (g, b), ctl := none, ck := false, limm := 0, bad := 0 }

/-- The bundle that holds one control operation alone. -/
def bundleOfCtlOp (i : Instr) (g : BitVec 4) (c : Ctl) : Bundle :=
  { word := bundleOfCtl ((ctlOf i).getD 0), mvs := [], beat := none, ctl := some (g, c), ck := false, limm := 0
    bad := if ctlFieldsOk i then 0 else 0x200 }

/-! ### Regions (R212 to R220) -/

/-- Operations of a context in flight (R213). -/
def State.busy (s : State) (c k : Nat) : Bool :=
  (s.agenda.any fun p => p.own c k && (p.ev.ofBundle || p.ev.sent)) || (s.ctx c k).infl != 0

/-- The region that a CK bundle opens (R212, R213). -/
def openRegion (s : State) (c : Nat) (y : Ctx) : Region :=
  { Region.zero with isOpen := true, startPos := s.pos y, start := y.pc
                     snap := some (y.regs, (s.core c).arr, (s.mem.level 1 c).used)
                     taint := y.regBad.filter fun n => decide (poisonCode 0 ≤ n) }

/-- Writes an undo entry back (R217). -/
def undoOne (used0 : SMap Bool) (x : Store) : Undo → Store
  | .part p data poison =>
    let bytes := Memory.writeAll x.bytes (cellsOf (16 * p) 16 data.toNat)
    let f := p / 1024
    { x with bytes := bytes, poison := mput x.poison p poison
             used := if mget used0 false f then x.used else mdel x.used f }
  | .mark f m u =>
    { x with marks := if m = 0xFFFFFFFF#32 then mdel x.marks f else mput x.marks f m
             used := if u then mput x.used f true else mdel x.used f }

/-- Array entries are written back from their shadow (R217). -/
def unshadow (m shadow : SMap (List Entry)) : SMap (List Entry) :=
  shadow.foldl (fun m q => if q.2 = List.replicate 128 Entry.zero then mdel m q.1 else mput m q.1 q.2) m

/-- The array after a restore (R213, R217): pipes, anchor, residency and mode of the snapshot, and the shadowed entries. -/
def Arr.restore (a snap : Arr) (g : Region) : Arr :=
  { a with pipes := snap.pipes, anchor := snap.anchor, resid := snap.resid, grad := snap.grad
           sums := unshadow a.sums g.sums, accs := unshadow a.accs g.accs }

/-- The clocks of a restore (R217). -/
def restoreTime (n : Nat) : Nat := max 4 ((n + 7) / 8)

/-- A restore (R217): the context's operations in flight are cancelled, and the snapshot, the shadows and the undo log, its newest entry
first, are written back, which ends the errors of what is written (R282); the CK bundle issues again at clock `at_`, in rerun `stage`. -/
def restoreRegion (s : State) (c k stage at_ : Nat) : State :=
  let y := s.ctx c k
  let g := y.region
  match g.snap with
  | none => s
  | some (regs, arr, used0) =>
    let x := y.region.undo.foldr (fun u x => undoOne used0 x u) (s.mem.level 1 c)
    let agenda := s.agenda.filter fun p => !(p.core == c && p.ctx == k && p.ev.ofBundle)
    let y := { y with regs := regs, pc := y.region.start, status := .ready, readyAt := at_, ldl := none, engWalk := none
                      regBad := g.taint
                      region := { y.region with isOpen := true, undo := [], sums := [], accs := [], landed := [], stored := []
                                                stage := stage, bundles := 0, sig := 0 } }
    let s := { s with mem := s.mem.setLevel 1 c x, agenda := agenda }
    (s.setCtx c k y).setArr c ((s.core c).arr.restore arr g)

/-- A detected data error in an open region (R217): the rollback of its first detection; in a rerun, the core fails (R219). -/
def detectError (s : State) (c k : Nat) : State :=
  let y := s.ctx c k
  if y.region.stage ≠ 0 then
    let s := s.sayWatch [s.count, BitVec.ofNat 64 y.region.stage, BitVec.ofNat 64 y.region.bundles, y.region.sig]
    let s := s.setCtx c k { y with region := { y.region with stage := 3, isOpen := false }, status := .stopped }
    s.post (s.clock + 1) true c k .rerunCompare
  else
    let s := s.setCtx c k { y with region := { y.region with detectPos := s.pos y, detectClock := s.clock } }
    let s := if y.timed then s.requestHold 0 none else s
    restoreRegion s c k 1 (s.clock + restoreTime y.region.undo.length)

/-- The signature takes a value's 64-bit words (R217). -/
def sigWords (sig : BitVec 64) (code : Nat) (words : List (BitVec 64)) : BitVec 64 :=
  words.zipIdx.foldl (fun g w => mix (g ^^^ w.1) (BitVec.ofNat 64 (code + w.2 * 65536))) sig

/-- The 64-bit words of the value that a move writes: a Q register takes a bit, an M register 128 (R27, R217). -/
def LVal.wordsAt (v : LVal) (dst : Nat) : List (BitVec 64) :=
  if 0x80 ≤ dst ∧ dst < 0xC0 then [if v.sval.val != 0 then 1 else 0]
  else if 0xC0 ≤ dst ∧ dst < 0x100 then
    let m : Mask := ofMask fun l => lane v.vval.bits l != 0
    [m.extractLsb' 0 64, m.extractLsb' 64 64]
  else v.words

/-- Inserts an entry in ascending key, after those of the same key. -/
def insertKey {α : Type} (x : Nat × α) : List (Nat × α) → List (Nat × α)
  | [] => [x]
  | y :: t => if x.1 < y.1 then x :: y :: t else y :: insertKey x t

/-- The end of a clock for a region's signature (R217): after the moves, the results that have landed in ascending unit with z before y,
then the carrel store words in ascending address. -/
def Region.flush (g : Region) : Region :=
  let landed := g.landed.foldl (fun acc x => insertKey x acc) []
  let stored := g.stored.foldl (fun acc x => insertKey x acc) []
  let sig := landed.foldl (fun sig x => sigWords sig x.1 x.2) g.sig
  let sig := stored.foldl (fun sig x => mix (sig ^^^ x.2) (0x800#64 ^^^ (BitVec.ofNat 64 x.1 <<< 12))) sig
  { g with landed := [], stored := [], sig := sig }

/-- The operation of a context's bundles in flight that lands first, in the order of issue among equals. -/
def State.nextLanding (s : State) (c k : Nat) : Option Pending :=
  (s.agenda.filter fun p => p.own c k && p.ev.ofBundle).foldl (fun best p =>
    match best with
    | none => some p
    | some q => if p.due < q.due then some p else best) none

/-- The region of a context once everything that its bundles have in flight has landed, each in its own cycle, with the signature of what lands
(R217). Only the signature of the state is of use: nothing lands yet. -/
def State.foreseen (s : State) (c k : Nat) : Nat → Region
  | 0 => (s.ctx c k).region.flush
  | fuel + 1 =>
    match s.nextLanding c k with
    | none => (s.ctx c k).region.flush
    | some p =>
      let s := if s.time p.onClock = p.due then s
        else s.setCtx c k { s.ctx c k with region := (s.ctx c k).region.flush }
      let s := if p.onClock then { s with clock := p.due } else { s with count := BitVec.ofNat 64 p.due }
      (landNow p { s with agenda := s.agenda.filter fun q => !(q.seq == p.seq && q.lvl == p.lvl) }).foreseen c k fuel

/-- The signature at ckend (R217): it takes what has landed in the clock, then the results of the region that are in flight, each with the
others of its cycle, with the values that memory gives them as it stands (log 28). An entry leads to at most two further ones. -/
def State.sealed (s : State) (c k : Nat) : BitVec 64 := (s.foreseen c k (3 * s.agenda.length)).sig

/-- The end of a region at its ckend bundle (R212, R217, R218); `watch hold` prints each rerun (R194): after rerun 1 the position goes back to
the region's start, and lags the count by that much more. -/
def endRegion (s : State) (c k : Nat) : State :=
  let y := s.ctx c k
  let y := { y with region := { y.region with sig := s.sealed c k, landed := [], stored := [] } }
  match y.region.stage with
  | 0 => s.setCtx c k { y with region := Region.zero }
  | 1 =>
    let s := s.sayWatch [s.count, 1, BitVec.ofNat 64 y.region.bundles, y.region.sig]
    let at_ := s.clock + 1 + restoreTime y.region.undo.length
    let lag := (y.region.detectPos - y.region.startPos) + (at_ - y.region.detectClock)
    let s := s.setCtx c k { y with lag := y.lag + lag, region := { y.region with bundles1 := y.region.bundles, sig1 := y.region.sig } }
    let s := restoreRegion s c k 2 at_
    if y.timed then s.post at_ true c k (.endNotice 0 lag) else s
  | _ =>
    let s := s.sayWatch [s.count, 2, BitVec.ofNat 64 y.region.bundles, y.region.sig]
    let s := s.setCtx c k { y with region := { y.region with isOpen := false } }
    s.post (s.clock + 1) true c k .rerunCompare

/-! ### Waits -/

/-- The pieces of an access: level, physical address and bytes in each page. -/
def Env.pieces (e : Env) (a : Acc) : List (Nat × Nat × Nat) :=
  (Reg.pages ⟨a.va, a.len, true, false, false, false⟩).filterMap fun p => (e.place p.1).map fun q => (q.1, q.2, p.2)

/-- An access to a location of an exchange, vac or setm of the same context in flight (R18). -/
def Env.underOwn (e : Env) (accs : List Acc) : Bool :=
  let ps := e.s.flight e.c e.k
  accs.any fun a => a.r18 && (e.pieces a).any fun q =>
    ps.any fun p => p.ev.places.any fun l => locHits l.1 l.2 q.1 e.c q.2.1 q.2.2

/-- Whether an operation in flight writes bytes of a range of a level. -/
def Pending.writesIn (p : Pending) (lvl pa len : Nat) : Bool :=
  p.lvl == lvl && match p.ev with
    | .write cells _ _ => cells.any fun c => decide (pa ≤ c.1 ∧ c.1 < pa + len)
    | .redux code x a _ _ => decide (a.pa < pa + len ∧ pa < a.pa + targetLen (code == 6 || (code == 8 && x != 0)))
    | _ => false

/-- A load, exchange or burst of a free context that touches bytes which its own best-effort writes have yet to write (R174), or a store
that would take the room of an earlier burst's records (log 55). -/
def Env.behindOwn (e : Env) (accs : List Acc) : Bool :=
  let ps := (e.s.flight e.c e.k).filter fun p => decide (2 ≤ p.lvl)
  e.crowds accs || !e.y.timed && accs.any fun a => !a.wr && (e.pieces a).any fun q => ps.any fun p => p.writesIn q.1 q.2.1 q.2.2

/-- The first page of a free context's accesses that its core's cache lacks, unless its walk has found no page (R291). -/
def Env.missing (e : Env) (accs : List Acc) : Option Nat :=
  if e.y.timed then none
  else
    ((accs.flatMap fun a => Reg.pages ⟨a.va, a.len, true, false, false, false⟩).findSome? fun p =>
      match lvlOf p.1 with
      | none => none
      | some lvl =>
        match (e.s.core e.c).translate e.y lvl p.1 with
        | .miss => some (pageOf p.1)
        | _ => none).filter fun page => e.y.walkBad != some page

/-- Whether a context waits for the walk of a page. -/
def State.walking (s : State) (c k page : Nat) : Bool := s.agenda.any fun p => p.core == c && p.ctx == k && p.ev == .walk page

/-- A page that a free context misses is walked, within 256 cycles (R291); one walk is enough. -/
def State.walkFor (s : State) (c k page : Nat) : State :=
  if s.walking c k page then s else s.post (s.clock + Config.freeNat s.free % 257) true c k (.walk page)

/-- The first gated or waking bank among a free context's gallery accesses (R83). -/
def Env.asleep (e : Env) (accs : List Acc) : Option Nat :=
  if e.y.timed then none
  else
    (accs.flatMap e.pieces).findSome? fun q =>
      if q.1 = 2 ∧ (e.s.bank (frameOf q.2.1)).state ≠ 0 then some (frameOf q.2.1) else none

/-- Another context of the core has a region open (R215). -/
def State.regionBeside (s : State) (c k : Nat) : Bool :=
  (List.range 4).any fun j => j != k && ((s.ctx c j).region.isOpen || (s.ctx c j).region.stage != 0)

/-- A burst of the context has yet to make records through one of these units (R86). -/
def State.bursting (s : State) (c k : Nat) (units : List Nat) : Bool :=
  units.any fun f => (f == 6 || f == 7) && s.agenda.any fun p =>
    p.core == c && p.ctx == k && match p.ev with | .spill g .. => g == f | _ => false

/-- An operation that its context waits for when it is late: one that lands a result, an exchange, vac or setm; no store, reduction or
rclr (R174). -/
def Pending.waitedFor (p : Pending) : Bool :=
  match p.ev with | .xch .. | .vac _ | .setm .. => true | _ => !p.wr && p.ev.ofBundle

/-- A best-effort operation of the context is past its stated cycle (R174). -/
def State.late (s : State) (c k : Nat) : Bool :=
  s.agenda.any fun p => p.core == c && p.ctx == k && decide (p.stated ≤ s.time p.onClock) && p.waitedFor

/-! ### The steps of an issue (R29) -/

/-- The environment of a bundle: its context, in the region that a CK bundle opens. -/
def bundleEnv (s : State) (c k : Nat) (b : Bundle) : Env :=
  let y := s.ctx c k
  let y := if b.ck && !y.region.isOpen then { y with region := openRegion s c y } else y
  { s := s, c := c, k := k, y := y, r := y.regs, limm := b.limm, pc := y.pc, slot := 0 }

/-- The moves whose guard reads true (R31). -/
def Env.enabled (e : Env) (b : Bundle) : List Mv := b.mvs.filter fun m => e.y.regs.rdQ m.g.toNat
/-- The beat, when its guard reads true. -/
def Env.beat (e : Env) (b : Bundle) : Option Beat :=
  match b.beat with | some (g, x) => if e.y.regs.rdQ g.toNat then some x else none | none => none
/-- The control operation, when its guard reads true. -/
def Env.ctl (e : Env) (b : Bundle) : Option Ctl :=
  match b.ctl with | some (g, x) => if e.y.regs.rdQ g.toNat then some x else none | none => none

/-- One move's write of step 3 (R27, R29). -/
def Env.writeMove (e : Env) (r : Regs) (m : Mv) : Regs :=
  let n := m.dst.toNat
  if n < 0x40 then r.wrS n (e.scalar m.src)
  else if n < 0x80 then r.wrV (n - 0x40) (e.vector m.src)
  else if n < 0xC0 then r.wrQ (n - 0x80) ((e.scalar m.src).val != 0)
  else if n < 0x100 then
    let v := e.vector m.src
    { r with m := mput r.m (n - 0xC0) (ofMask fun l => lane v.bits l != 0) }
  else if n < 0x200 then
    let f := fuOf ((n - 0x100) / 8)
    match portClass f (n % 8) with
    | some true => r.wrSP f (n % 8) (e.scalar m.src)
    | some false => r.wrVP f (n % 8) (e.vector m.src)
    | none => r
  else r

/-- The registers after step 3. -/
def Env.step3 (e : Env) (ms : List Mv) : Regs := ms.foldl e.writeMove e.y.regs

/-- The value that a trigger receives as t. -/
def Env.operand (e : Env) (m : Mv) : LVal := e.source (trigClass ((m.dst.toNat - 0x200) / 16)) m.src

/-- The operand that a move reads a source as: a port, t, or 7 for a register. R272 has no code for a format mark that a plain move into a V or
M register reads: it is 7 as well, R281's code for a move into a register (DESIGN CHOICE, log 56). -/
def Mv.operand (m : Mv) : Nat := if 0x200 ≤ m.dst.toNat then 4 else if 0x100 ≤ m.dst.toNat then m.dst.toNat % 8 else 7

/-- The format mark that a move reads (R74, R121): of a V register, or of a latch that it does not move into a V register (log 20). -/
def Env.markCheck (e : Env) (m : Mv) : Except Trap Unit :=
  let v := e.vector m.src
  let intoV := decide (0x40 ≤ m.dst.toNat ∧ m.dst.toNat < 0x80)
  trapIf (!busOf m.dst && v.mark && !(intoV && decide (0x100 ≤ m.src.toNat))) (trapTag v.tag m.operand)

/-- The checks of a move by itself: register error (R282), a read of $cycle in a region (R214), a format mark (R74), and the poison that
a move into Q or M consumes (R281). -/
def Env.moveCheck (e : Env) (m : Mv) : Except Trap Unit := do
  e.regError m.src
  trapIf (e.y.region.isOpen && m.src == 0x302#10) trapRegion
  e.markCheck m
  let n := m.dst.toNat
  if 0x80 ≤ n ∧ n < 0xC0 then checkUses [useS (e.scalar m.src) 7]
  else if 0xC0 ≤ n ∧ n < 0x100 then checkUses [useAny (e.vector m.src) 7]
  else .ok ()

/-- The ports that an operation reads, by its trigger's unit and code (R39, R71 to R77, R125 to R138, R146, R185 to R191, R225, R278). -/
def portsRead (e : Env) (t : LVal) (f o : Nat) : List Nat :=
  match f, o with
  | 0, _ | 1, _ | 2, _ | 3, _ => [0, 1]
  | 4, _ => [0]
  | 5, o => if 7 ≤ o ∧ o ≤ 11 then [0, 1] else [0]
  | 6, o | 7, o =>
    if o = 0 ∨ o = 3 then [0, 2] else if o ≤ 4 then [0, 1, 2] else if o = 5 then [0, 3] else if o ≤ 8 then [0, 1, 3]
    else if o = 9 then [1] else [1, 2]
  | 8, o | 10, o =>
    if o = 3 ∨ o = 11 then [0, 1] else if o = 8 then [0, 2] else if o = 9 ∨ o = 12 then [2]
    else if o = 6 ∨ o = 7 ∨ o = 10 then [] else [0]
  | 9, o | 11, o => if o = 11 ∨ o = 12 then [0, 2] else if o = 15 then [2] else [0]
  | 12, i =>
    let r := (mget e.y.regs.recipe 0 i).toNat
    (triadUses e (r / 256 % 16) (r / 16 % 16) (r % 16)).map Use.operand
  | 13, o => if o = 2 ∨ o = 3 ∨ o = 7 ∨ o = 8 then [0] else []
  | 14, 0 => [1, 2]
  | 14, 1 => [1, 2, 3]
  | 14, 2 => if t.vval.tag = 0 then [2, 3] else [3]
  | 14, 3 | 14, 7 => [0]
  | 14, 5 | 14, 6 => [1, 3]
  | 14, _ => [2]
  | 16, o => if o = 1 ∨ o = 3 then [0, 1, 2] else if o = 0 ∨ o = 2 ∨ o = 6 then [0] else []
  | 17, o => if o ≤ 4 then [0, 1] else if o = 5 then [0, 1, 2] else if o = 6 then [0] else []
  | 18, o =>
    if o ≤ 6 ∨ o = 10 then [0] else if o = 7 ∨ o = 8 then [2] else if o = 9 then [0, 1, 3] else if o = 11 then [3] else []
  | 20, o => if o ≤ 3 ∨ o = 7 then [0] else if o = 8 then [0, 1] else []
  | 21, o => if 3 ≤ o ∧ o ≤ 5 then [0] else []
  | _, _ => []

/-- register or latch error of a port that a move's operation reads (R282). -/
def Env.portsCheck (e : Env) (m : Mv) : Except Trap Unit :=
  if e.y.regBad.isEmpty then .ok ()
  else
    (portsRead e (e.operand m) ((m.dst.toNat - 0x200) / 16) (m.dst.toNat % 16)).forM fun p => e.portError (trigUnit m.dst) p

/-- What one move slot does after step 3: its checks, and its operation. -/
def Env.runSlot (e : Env) (m : Mv) (s : State) : Except Trap State := do
  e.moveCheck m
  match m.op with
  | some o => do
    e.portsCheck m
    o.run { e with slot := m.slot } (e.operand m) s
  | none => return s

/-- Inserts a move in ascending unit order. -/
def insertMv (m : Mv) : List Mv → List Mv
  | [] => [m]
  | x :: t => if dstName m.dst < dstName x.dst then m :: x :: t else x :: insertMv m t

/-- The moves in ascending order of their destinations' units: the order in which stores of one bundle stand (R89). -/
def unitOrder (ms : List Mv) : List Mv := ms.foldr insertMv []

/-- Runs slots in a given order. -/
def Env.runSlots (e : Env) (ms : List Mv) (s : State) : Except Trap State := ms.foldlM (fun s m => e.runSlot m s) s

/-- Step 4 (R29): the slots' checks in slot order choose the trap (R273); the operations act in unit order (R89),
a store before an exchange of the same place in the bundle too, for which R89 names no order (DEDUCED, log 25). -/
def Env.step4 (e : Env) (ms : List Mv) (s : State) : Except Trap State :=
  match e.runSlots ms s with
  | .error t => .error t
  | .ok _ => e.runSlots (unitOrder ms) s

/-- The return that a bundle's trec asks for, when the record is valid (R275). -/
def Env.returns (e : Env) (b : Bundle) : Option Bool :=
  if !e.y.record.valid then none
  else
    match (e.enabled b).find? fun m => m.dst == 0x350#10 with
    | some m => returnOf (e.operand m).sval.val
    | none => none

/-- Step 5 (R29): the beat, then the control slot; a return from a trap takes the place of its transfer (R275). -/
def Env.step5 (e : Env) (b : Bundle) (s : State) : Except Trap (State × Flow) := do
  let s ← match e.beat b with
    | some x => x.run e s
    | none => .ok s
  match e.ctl b with
  | some x => do
    trapIf (e.y.region.isOpen && x.impure) trapRegion
    let r ← x.run e s
    return if (e.returns b).isSome && r.2 != .fall then (s, .fall) else r
  | none => return (s, .fall)

/-- The environment once the bundle's own moves have written their destinations: triggers see the ports as they then stand (R29). -/
def Env.moved (e : Env) (b : Bundle) : Env :=
  let ms := e.enabled b
  let e' := { e with r := e.step3 ms, dsts := ms.map Mv.dst }
  { e' with
    bursts := ms.filterMap fun m =>
      let f := trigUnit m.dst
      let o := m.dst.toNat % 16
      if 0x200 ≤ m.dst.toNat ∧ (f = 6 ∨ f = 7) ∧ (o = 9 ∨ o = 10) then some (f, o == 10, (burstRun f e' (e.operand m)).2) else none
    sbase := (ms.find? fun m => m.dst == 0x355#10).map fun m => e'.sbaseOf (e.operand m) }

/-- The units that the bundle's moves trigger; a trigger under a false guard starts nothing (R31). -/
def Env.units (e : Env) (b : Bundle) : List Nat :=
  (e.enabled b).filterMap fun m => if m.dst.toNat < 0x200 then none else some (trigUnit m.dst)

/-- The accesses that a bundle makes. -/
def Env.accesses (e : Env) (b : Bundle) : List Acc :=
  ((e.enabled b).flatMap fun m => match m.op with | some o => o.acc (e.moved b) (e.operand m) | none => []) ++
    (match e.beat b with | some x => x.acc e | none => [])

/-- Whether a bundle holds a carrel access (R162). -/
def Env.carrel (e : Env) (b : Bundle) : Bool := (e.accesses b).any fun a => lvlOf a.va == some 1

/-- Slots that are illegal as the machine stands: send and recv of a free context, whatever their guards (R31, R204), and, under a guard that
reads true, a beat outside its mode (R151), a wait of a timed context (R50), a phase of a launch without one (R175). Of R151, which names no
guard, that is DEDUCED (log 57). -/
def Env.illegalNow (e : Env) (b : Bundle) : BitVec 11 :=
  let m := b.mvs.foldl (fun (m : BitVec 11) x =>
    setBit m x.slot ((x.dst == 0x329#10 || x.dst == 0x32A#10) && !e.y.timed)) 0
  let beatBad := match e.beat b with
    | some x => x.mode.isSome && x.mode != some e.arr.grad
    | none => false
  let ctlBad := match e.ctl b with | some x => x.illegal e | none => false
  setBit (setBit m 8 beatBad) 9 ctlBad

/-- Whether a context waits. -/
def Status.waits : Status → Bool
  | .waiting _ => true
  | _ => false

/-- The state in which a bundle is held, when it waits (R18, R73, R80, R83, R86, R149, R174, R213, R215, R216, R227, R291). -/
def Env.held (e : Env) (b : Bundle) : Option State :=
  let accs := e.accesses b
  let s := e.s
  let ms := e.enabled b
  let mx := ms.any fun m => decide (m.dst.toNat ≥ 0x340 ∧ m.dst.toNat < 0x350)
  if e.s.late e.c e.k then some s
  else if b.ck && !(s.ctx e.c e.k).region.isOpen && (s.busy e.c e.k || (e.y.timed && s.beatsInFlight e.c)) then some s
  else if (mx || (e.beat b).isSome) && s.regionBeside e.c e.k then some s
  else if s.bursting e.c e.k (e.units b) || (e.moved b).breaksBurst then some s
  else if e.underOwn accs || e.behindOwn accs then some s
  else
    match e.missing accs with
    | some page => some (s.walkFor e.c e.k page)
    | none =>
      match e.asleep accs with
      | some bank =>
        if s.agenda.any fun p => p.ev == .bankWake bank || p.ev == .bankAwake bank then some s
        else some (s.post s.clock true e.c e.k (.bankWake bank))
      | none =>
        if (match e.ctl b with | some x => x.hold e s | none => false) then some s
        else ms.findSome? fun m => match m.op with | some o => o.hold { e.moved b with slot := m.slot } (e.operand m) s | none => none

/-- What an open region forbids a bundle: CK, but for the bundle that a rollback starts at, and a 4,097th cycle, in a rerun too (R212,
R214). -/
def Env.regionCheck (e : Env) (b : Bundle) : Except Trap Unit := do
  let g := (e.s.ctx e.c e.k).region
  let again := g.stage != 0 && g.bundles == 0
  trapIf (b.ck && g.isOpen && !again) trapRegion
  trapIf (e.y.region.isOpen && !again && decide (4096 ≤ e.s.regionCyc e.y)) trapRegion

/-- The first slot whose guard register has an error, or carries poison, with its trap (R282): slots 0 to 7, the beat 8, the control slot 9. -/
def Env.guardBad (e : Env) (b : Bundle) : Option (Nat × Trap) :=
  if e.y.regBad.isEmpty then none
  else
    let gs : List (Nat × BitVec 4) :=
      (b.mvs.map fun m => (m.slot, m.g)) ++ (b.beat.toList.map fun x => (8, x.1)) ++ b.ctl.toList.map fun x => (9, x.1)
    gs.findSome? fun x =>
      if x.2 == (0 : BitVec 4) then none
      else
        match (do e.regError (0x80#10 + x.2.zeroExtend 10); e.unpoisoned (0x80#10 + x.2.zeroExtend 10) : Except Trap Unit) with
        | .error t => some (x.1, t)
        | .ok _ => none

/-- Steps 3 to 5 of a bundle (R29): the state in which its operations are in flight, its flow, or its trap. -/
def Env.act (e : Env) (b : Bundle) : Except Trap (State × Flow) := do
  let ms := e.enabled b
  let e := e.moved b
  e.regionCheck b
  let s := e.s.setCtx e.c e.k { e.y with regs := e.r }
  match e.guardBad b with
  | none => do
    let s ← e.step4 ms s
    e.step5 b s
  | some (slot, t) => do
    let s ← e.runSlots (ms.filter fun m => decide (m.slot < slot)) s
    match (if slot = 9 then e.beat b else none) with
    | some x => do
      let _ ← x.run e s
      .error t
    | none => .error t

/-! ### Commit -/

/-- The group time at which a context's next bundle may issue; and its counts after an issue (R63, R279). -/
def Ctx.charged (y : Ctx) : Ctx :=
  { y with regs := { y.regs with budget := y.regs.budget - 1 }, issued := y.issued + 1, ldl := none, engWalk := none, walkBad := none }

/-- The signature and bundle count of an open region after a bundle (R217). -/
def Env.sign (e : Env) (ms : List Mv) (y : Ctx) : Ctx :=
  if !y.region.isOpen then y
  else
    let sig := ms.foldl (fun g m =>
      if m.dst.toNat < 0x200 then sigWords g m.dst.toNat ((e.source ((dstClass m.dst).getD true) m.src).wordsAt m.dst.toNat) else g) y.region.sig
    { y with region := { y.region with sig := sig, bundles := y.region.bundles + 1
                                       rerunAt := if y.region.stage ≠ 0 ∧ y.region.bundles = 0 then e.s.clock else y.region.rerunAt } }

/-- The context after a bundle: next bundle by the flow, or by a return from a trap (R44, R58, R275). -/
def afterFlow (y : Ctx) (pc : BitVec 13) (f : Flow) (ret : Option Bool) : Ctx :=
  match ret with
  | some skip =>
    let w0 := mget y.record.words 0 0
    let y := trapRestore y
    let at_ := w0.extractLsb' 0 13
    let resume := w0.extractLsb' 13 13
    if skip && w0.extractLsb' 26 6 != 2 then
      let (r, n) := fallFrom y.regs at_
      { y with regs := r, pc := n }
    else { y with pc := resume }
  | none =>
    let (r, n) := f.apply y.regs pc
    { y with regs := r, pc := n }

/-- A halted context keeps no loop level (R55). -/
def Ctx.dropLoops (y : Ctx) : Ctx := if y.status = .halted then { y with regs := y.regs.popFrom 0 } else y

/-- The issue choices of a core after an issue (R162). -/
def Core.chose (x : Core) (k : Nat) (timed yielded : Bool) (word : BitVec 256) (units : List Nat) (carrel : Bool) : Core :=
  match x.prim with
  | none =>
    if timed then { x with prim := some (k, word, carrel), primUnits := units }
    else { x with prim := some (k, word, carrel), primUnits := units, rrPrimary := if x.running = some k then x.rrPrimary else k
                  running := if yielded then none else some k }
  | some _ => { x with rrSecond := k, full := true, running := if yielded && x.running == some k then none else x.running }

/-- The operations that a bundle has put in flight after the first `n`; its commands wait for the writes of the whole bundle (R232),
which all stand before `m`. -/
def newOps (n m : Nat) (ps : List Pending) : List Pending :=
  (ps.drop n).map fun p => match p.ev with | .engAcquire c => { p with ev := .engAcquire { c with id := m } } | _ => p

/-- A committed bundle changes its own core, the operations in flight, and what operations change at issue; memory, the clock, the
count and every other core stay as they were. -/
def commit (s : State) (c : Nat) (s' : State) : State :=
  { s with cores := mput s.cores c (s'.core c), agenda := s.agenda ++ newOps s.agenda.length s'.free s'.agenda, free := s'.free
           claims := s'.claims, banks := s'.banks, ports := s'.ports, gs := s'.gs
           ctl := { s.ctl with launches := s'.ctl.launches } }

/-- The context has used its turn of this clock (log 8). -/
def State.spent (s : State) (c k : Nat) : State := { s with turn := .idle, tried := (c, k) :: s.tried }

/-- The code that a register error of a move's destination has: a register, or a port (R282). -/
def Env.dstCode (e : Env) (d : BitVec 10) : Option Nat :=
  if d.toNat < 0x100 then some (e.physical d) else if d.toNat < 0x200 then some (0x300 + dstName d) else none

/-- The registers and ports, by their codes, that the moves and the control operation of a bundle write: the link of a call, and the
predicates that a rotating loop sets when it opens (R27, R47, R57). -/
def Env.writes (e : Env) (b : Bundle) : List Nat :=
  ((e.enabled b).filterMap fun m => e.dstCode m.dst) ++ (match e.ctl b with | some x => x.writes e | none => [])

/-- The predicate that the loop event of a bundle has written, when it has rotated the registers (R58). -/
def eventCode (old new : Regs) : List Nat := if old.base = new.base then [] else [0x80 + physQ new.base 8]

/-- An error, and the poison of a value, end when the bundle writes the register or port (R282). -/
def Env.mend (e : Env) (b : Bundle) (y : Ctx) : Ctx :=
  if y.regBad.isEmpty then y else { y with regBad := mended y.regBad (e.writes b ++ eventCode e.y.regs y.regs) }

/-- The context after its bundle has acted. -/
def Env.finish (e : Env) (b : Bundle) (s' : State) (f : Flow) : Ctx :=
  e.mend b
    (((e.sign (e.enabled b) (afterFlow (s'.ctx e.c e.k) e.pc f (e.returns b))).charged).dropLoops)

/-- A bundle commits (R29, R63). -/
def Env.commits (e : Env) (b : Bundle) (s' : State) (f : Flow) : State :=
  let s' := s'.setCtx e.c e.k (e.finish b s' f)
  let s' := s'.setCore e.c ((s'.core e.c).chose e.k e.y.timed (decide ((s'.ctx e.c e.k).yieldFor = e.s.clock + 1)) b.word (e.units b) (e.carrel b))
  let s1 := (commit e.s e.c s').spent e.c e.k
  match e.ctl b with
  | some x =>
    let s1 := if x.ends && e.y.region.isOpen then endRegion s1 e.c e.k else s1
    match x.soft with
    | some code =>
      let t : Trap := { trapOf 0x02 0 0 with code := code }
      raiseTrap s1 e.c e.k t e.pc (s1.ctx e.c e.k).pc
    | none => s1
  | none => s1

/-- The class of a detected data error: residue-detected, and register or latch error (R217). -/
def Trap.isDataError (t : Trap) : Bool := t.cls == 0x11 || t.cls == 0x10

/-- A trap or a pre-emption ends a rollback: the hold that it has requested ends, unless its end notice has gone out (R209, R220). -/
def State.dropRerun (s : State) (c k : Nat) : State :=
  let y := s.ctx c k
  if y.region.stage ≠ 0 ∧ y.timed then s.noticeHold 0 (some y.region.detectClock) (s.clock - y.region.detectClock) else s

/-- A scalar value with poison; a vector value with every lane poisoned. -/
def SVal.poisoned (v : SVal) : SVal := { v with poison := true }
def VVal.poisoned (v : VVal) : VVal := { v with poison := allLanes, void := false }

/-- The registers once the value of a register, latch or port, by its physical code, is poisoned (R282); `regBad` holds that of Q and M. -/
def Regs.poisonAt (r : Regs) (n : Nat) : Regs :=
  if n < 0x40 then { r with s := mput r.s n (mget r.s SVal.zero n).poisoned }
  else if n < 0x80 then { r with v := mput r.v (n - 0x40) (mget r.v VVal.zero (n - 0x40)).poisoned }
  else if n < 0x100 then r
  else if 0x400 ≤ n then
    match portClass ((n - 0x400) / 8) (n % 8) with
    | some true => { r with sport := mput r.sport (n - 0x400) (mget r.sport SVal.zero (n - 0x400)).poisoned }
    | some false => { r with vport := mput r.vport (n - 0x400) (mget r.vport VVal.zero (n - 0x400)).poisoned }
    | none => r
  else
    match latchClass ((n - 0x100) / 8) (n % 8) with
    | some true => { r with slatch := mput r.slatch (n - 0x100) (mget r.slatch SVal.zero (n - 0x100)).poisoned }
    | some false => { r with vlatch := mput r.vlatch (n - 0x100) (mget r.vlatch VVal.zero (n - 0x100)).poisoned }
    | none => r

/-- A register or latch error that has been raised is gone, and the value read is poisoned (R282); Q0 has no value of its own. -/
def Env.afterError (e : Env) (t : Trap) (y : Ctx) : Ctx :=
  if t.cls = 0x10 then
    let n := e.errorCode (t.w2.extractLsb' 0 10)
    { y with regBad := y.regBad.filter (fun m => m != n) ++ (if 0x80 < n ∧ n < 0x100 then [poisonCode n] else []), regs := y.regs.poisonAt n }
  else y

/-- An injected residue failure is of the first issue of its bundle (R194). -/
def State.spendResidue (s : State) (c k idx : Nat) (t : Trap) : State :=
  if t.cls = 0x11 then { s with out := { s.out with residue := s.out.residue.filter fun q => q != (c, k, idx) } } else s

/-- An injected tag-miss is spent at its trap, as the fault that it stands for (R194): its fret word carries the expert from then on, until
someone corrects it. -/
def Env.spendTagMiss (e : Env) (t : Trap) (s : State) : State :=
  let hit := fun (q : Nat × Nat × Nat × BitVec 16) => q.1 == e.c && q.2.1 == e.k && q.2.2.1 == e.idx
  let fret := (fretRead (e.arr.pipe (t.w2.extractLsb' 16 2).toNat)).head?.bind fun r => e.place r.va.toNat
  match s.out.tagMiss.find? hit, fret with
  | some q, some (lvl, pa) =>
    if t.cls = 0x04 then
      { s.putCells lvl e.c (cellsOf pa 2 q.2.2.2.toNat) [] with out := { s.out with tagMiss := s.out.tagMiss.filter fun q => !hit q } }
    else s
  | _, _ => s

/-- A bundle traps (R272, R274): it commits nothing. It has used its turn of the clock: one that traps as the primary bundle, an illegal one
among them, stays the primary, and another context's bundle must fit beside its slots and units, but it counts as no carrel access (DESIGN
CHOICE, log 56). A data error in an open region rolls it back (R217), also one in the CK bundle that opens it (R212); a bundle that fails again
after it was rewritten retires the core (R283). -/
def Env.traps (e : Env) (b : Bundle) (t : Trap) : State :=
  let s := e.s.spent e.c e.k
  let s := s.setCore e.c ((s.core e.c).chose e.k e.y.timed false b.word (e.units b) false)
  let y := s.ctx e.c e.k
  let s := (s.setCtx e.c e.k { e.afterError t y with ldl := none, engWalk := none, walkBad := none }).spendResidue e.c e.k e.idx t
  let s := e.spendTagMiss t s
  if t.isDataError && e.y.region.isOpen then
    detectError (s.setCtx e.c e.k { s.ctx e.c e.k with region := e.y.region }) e.c e.k
  else if t.cls = 0x19 ∧ (s.core e.c).suspect.contains e.pc.toNat then retireCore s e.c
  else raiseTrap (s.dropRerun e.c e.k) e.c e.k t e.pc e.pc

/-- The traps of a bundle that first reaches issue (R18): it fails legality or the budget, and does not wait. -/
def Env.atOnce (e : Env) (b : Bundle) : Bool :=
  (e.y.regs.budget == 0 || b.bad != 0) && !((e.s.core e.c).imemBad.contains e.pc.toNat)

/-- A burst that stops at a later record makes the records before it; its bundle waits for that record (R87). -/
def Env.partly (e : Env) (b : Bundle) (t : Trap) : State :=
  let f := t.burst.getD 6
  let s := match (e.enabled b).find? fun m => trigUnit m.dst == f && decide (0x200 ≤ m.dst.toNat) with
    | some m => burstPart f (m.dst.toNat % 16 == 10) { e.moved b with slot := m.slot } (e.operand m) e.s t.made
    | none => e.s
  (s.setCore e.c ((s.core e.c).chose e.k e.y.timed false b.word (e.units b) (e.carrel b))).spent e.c e.k

/-- What a bundle meets as it first reaches issue, before it waits (R18): an instruction-memory error (R283), since no bundle can be read
then, an illegal bundle (R32), an exhausted budget (R64). The mask of a static breach names its slots alone, even where a slot is illegal as
the machine stands too (DESIGN CHOICE, log 56). With the budget at 0, a bundle that nothing holds meets at once what is illegal as the machine
stands, which R273 puts first; one that would wait meets the exhausted budget. -/
def Env.preTrap (e : Env) (b : Bundle) : Option Trap :=
  if (e.s.core e.c).imemBad.contains e.pc.toNat then some (trapOf 0x19 (e.pc.zeroExtend 64) 0)
  else if b.bad ≠ 0 then some (trapIllegal b.bad)
  else if e.y.regs.budget = 0 then
    some (if e.illegalNow b ≠ 0 && (e.held b).isNone && !(e.s.ctx e.c e.k).status.waits then trapIllegal (e.illegalNow b)
      else trapOf 0x13 0 0)
  else none

/-- The trap that the first bundle which would issue takes in its place (R50, R179, R201). -/
def Env.dueTrap (e : Env) : Option Trap :=
  (e.s.ctx e.c e.k).ptrap.map fun q => trapOf q.1.toNat q.2.1 q.2.2

/-- THE ISSUE OF A BUNDLE by the context whose turn it is (R29 to R32, R272). -/
def issue (b : Bundle) (s : State) : State :=
  let (c, k) := s.actor
  let e := bundleEnv s c k b
  match e.preTrap b with
  | some t => e.traps b t
  | none =>
    match e.held b with
    | some s' => s'.spent c k
    | none =>
      match e.dueTrap with
      | some t => ({ e with s := s.setCtx c k { s.ctx c k with ptrap := none } } : Env).traps b t
      | none =>
        if e.illegalNow b ≠ 0 then e.traps b (trapIllegal (e.illegalNow b))
        else
          match e.act b with
          | .error t => if t.made ≠ 0 then e.partly b t else e.traps b t
          | .ok (s', f) => e.commits b s' f

/-- What a step answers. -/
abbrev Outcome := Host.Outcome State Fault Refusal

end Sys2Proof.Machine
end

