-- ==== Sys2Proof/Machine/Landing.lean ====
section
/-! DEFINITION. What happens when an operation in flight is due: results (R30, R174), spill records (R86), exchanges (R77, R78),
beats (R155), reductions, messages and broadcasts (R186, R188, R192), engines (R223, R230, R233), page walks (R291), banks (R83,
R210). -/

namespace Sys2Proof.Machine

/-- The entry of the agenda that the step at hand acts on; none when it acts on something else. -/
def State.due (s : State) : Option Pending :=
  match s.cause with
  | .due p => some p
  | _ => none

/-- The step at hand leaves its entry; the halves of a write that an exchange has split keep one place of issue, at two levels. -/
def State.taken (s : State) (p : Pending) : State :=
  { s with agenda := s.agenda.filter fun q => !(q.seq == p.seq && q.lvl == p.lvl), turn := .idle, cause := .none }

/-- Acts on the due entry that the step at hand has taken. -/
def onDue (s : State) (f : Pending → State → State) : Outcome :=
  match s.due with
  | some p => .next (f p (s.taken p))
  | none => .next { s with turn := .idle, cause := .none }

/-- A context that waited for a late operation is ready from the next cycle; a store never makes it wait (R174). -/
def State.wakeLate (s : State) (p : Pending) : State :=
  if p.stated < p.due ∧ p.waitedFor then s.onCtx p.core p.ctx fun y => { y with readyAt := max y.readyAt (s.clock + 1) } else s

/-- RESULT_LANDING (R30). -/
def execResultLanding (s : State) : Outcome := onDue s fun p s => (landEvent p s).wakeLate p

/-! ### Spill records (R86) -/

/-- The access of the burst record that a context makes next (R86). -/
def Env.nextRecord (e : Env) (fill : Bool) : Acc :=
  let x := e.y.regs.spill
  ⟨(x.addr (x.depth.toNat - if fill then 512 else 0)).toNat, 512, false, true⟩

/-- An entry of the agenda goes back to its place in the order of issue. -/
def putBack (p : Pending) : List Pending → List Pending
  | [] => [p]
  | q :: rest => if p.seq < q.seq then p :: q :: rest else q :: putBack p rest

/-- SPILL_RECORD (R86, R87): a record that cannot be made stops its burst there. A free context's record whose page its core no longer caches
waits for the walk of the page (R291). -/
def execSpillRecord (s : State) : Outcome :=
  onDue s fun p s =>
    match p.ev with
    | .spill f fill reg v tag last pc j =>
      let e := envAt s p.core p.ctx pc
      if 4 ≤ p.ctx then s
      else
      match e.missing [e.nextRecord fill] with
      | some page => let s := s.walkFor p.core p.ctx page; { s with agenda := putBack p s.agenda }
      | none =>
      match spillOne e s f fill reg v tag last with
      | .ok s => s
      | .error t =>
        let s := { s with agenda := s.agenda.filter fun q =>
          !(q.core == p.core && q.ctx == p.ctx && match q.ev with | .spill g .. => g == f | _ => false) }
        raiseTrap ((s.onCtx p.core p.ctx fun y => { y.setProg f j with walkBad := none }).dropRerun p.core p.ctx) p.core p.ctx { t with burst := some f } pc pc
    | _ => s

/-! ### Exchanges (R77, R78, R82) -/

/-- EXCHANGE_COMPLETION (R77, R82): the idle time of the gallery banks starts again (R83); a vac undoes the context's older stores there
(R89), and what the bank has queued. -/
def execExchangeCompletion (s : State) : Outcome :=
  onDue s fun p s =>
    let s :=
      match p.ev with
      | .xch leaf a b =>
        let s := ((doExchange s leaf a b).touchBank false a.lvl a.pa).touchBank false b.lvl b.pa
        xchLands (retarget s p (if leaf then 256 else 16384) a b) p.core p.ctx a b
      | .vac a =>
        let s := ({ s with mem := s.mem.setLevel a.lvl a.core ((s.mem.level a.lvl a.core).makeBlank a.pa) }).dropQueued a.lvl a.pa 16384
        let in_ := fun x => decide (a.pa ≤ x ∧ x < a.pa + 16384)
        let s := (supersede s { p with lvl := a.lvl } in_ fun i => in_ (16 * i)).touchBank false a.lvl a.pa
        s.onCtx p.core p.ctx fun y => { y with regs := { y.regs with xcnt := y.regs.xcnt + 1 } }
      | .setm a m =>
        let y := s.mem.level a.lvl a.core
        let y := { y with marks := mput y.marks (a.pa / 16384) m, used := mput y.used (a.pa / 16384) true }
        let s := ({ s with mem := s.mem.setLevel a.lvl a.core y }).touchBank false a.lvl a.pa
        s.onCtx p.core p.ctx fun y => { y with regs := { y.regs with xcnt := y.regs.xcnt + 1 } }
      | _ => s
    dropClaims (s.wakeLate p)

/-! ### Beats (R153 to R157) -/

/-- The entries of the sum file, and of the accumulators, that a beat writes (R213). -/
def Ev.entries : Ev → List Nat × List Nat
  | .feedSum e .. | .clrSum e => ([e], [])
  | .gfeedSum c .. | .clrAcc c => ([], (List.range 256).map fun k => 256 * c + k)
  | _ => ([], [])

/-- Entries that have no shadow yet are copied. -/
def copyEntries (m shadow : SMap (List Entry)) (ks : List Nat) : SMap (List Entry) :=
  ks.foldl (fun g k => if mhas g k then g else mput g k (mget m (List.replicate 128 Entry.zero) k)) shadow

/-- An open region of the context that a beat belongs to copies the entries that the beat lands in first (R213). -/
def State.shadowBeat (s : State) (p : Pending) : State :=
  let y := s.ctx p.core p.ctx
  if p.ctx < 4 ∧ y.region.isOpen then
    let a := (s.core p.core).arr
    s.setCtx p.core p.ctx { y with region := { y.region with
      sums := copyEntries a.sums y.region.sums p.ev.entries.1, accs := copyEntries a.accs y.region.accs p.ev.entries.2 } }
  else s

/-- BEAT_LANDING (R155, R213). -/
def execBeatLanding (s : State) : Outcome :=
  onDue s fun p s =>
    let s := s.shadowBeat p
    let a := (s.core p.core).arr
    let set := fun (a : Arr) => s.setArr p.core a
    match p.ev with
    | .pushRow c j b16 row =>
      let s' := set (a.push c j b16 row s.free)
      if b16 then { s' with free := s'.free + 128 } else s'
    | .feedSum e op acc cols => set (a.feed e op acc cols)
    | .gfeedSum c b16 anchor xs ys => set (a.gfeed c b16 anchor xs ys)
    | .clrSum e => set { a with sums := mdel a.sums e }
    | .clrAcc c => set { a with accs := a.accs.filter fun q => q.1 / 256 != c }
    | _ => s

/-! ### Across cores (R186, R188, R192) -/

/-- REDUCTION_AT_SLICE (R186, R187). -/
def execReductionAtSlice (s : State) : Outcome :=
  onDue s fun p s =>
    match p.ev with
    | .redux code x a phase l =>
      let cell := code == 6 || (code == 8 && x != 0)
      let at_ := fun b => let q := s.resolve p.core p.ctx 2 0 b; s.levelByte q.1 q.2.1 q.2.2
      let t := (Target.read cell (wordAt at_ a.pa (targetLen cell))).apply code x phase l
      s.writeAs p.core p.ctx 2 0 (Target.cells cell t a.pa) []
    | _ => s

/-- Whether a context runs a task of a launch. -/
def Ctx.runs (y : Ctx) (l : BitVec 64) : Bool := match y.task with | some t => t.launch == l | none => false

/-- MESSAGE_ARRIVAL (R188). -/
def execMessageArrival (s : State) : Outcome :=
  onDue s fun p s =>
    match p.ev with
    | .msg c k m l =>
      let y := s.ctx c k
      if y.runs l && decide (y.mailbox.length < 8) then
        s.setCtx c k { y with mailbox := y.mailbox ++ [{ m with arrived := s.clock }] }
      else s.setCtx c k { y with msgdrop := satInc y.msgdrop }
    | _ => s

/-- A part written into a vector register: lanes 4i to 4i + 3 (R192). -/
def putPart (v : VVal) (i : Nat) (data : BitVec 128) (poison : Bool) : VVal :=
  let lanes := (0xFFFFFFFFFFFFFFFFFFFFFFFFFFFFFFFF#128).zeroExtend 4096 <<< (128 * i)
  let m : Mask := 0xF#128 <<< (4 * i)
  { bits := (v.bits &&& ~~~lanes) ||| (data.zeroExtend 4096 <<< (128 * i)), tag := 0
    poison := if poison then v.poison ||| m else v.poison &&& ~~~m
    void := v.void && !poison && (v.poison &&& ~~~m) != 0, mark := false }

/-- The physical register that part `i` of a broadcast reaches (R38, R192). -/
def Arrival.reg (x : Arrival) (i : Nat) : Nat := physSV x.base (x.first.toNat + i / 32)

/-- Whether a counter accepts part `i` of a generation (R192). -/
def Arrival.accepts (x : Arrival) (gen : BitVec 16) (i : Nat) : Bool :=
  x.armed && x.gen == gen && decide (x.recv.toNat < x.exp.toNat) && decide (i < 32 * x.count.toNat)

/-- A part is written into a context's registers. -/
def Regs.takePart (r : Regs) (n i : Nat) (data : BitVec 128) (poison : Bool) : Regs :=
  { r with v := mput r.v n (putPart (mget r.v VVal.zero n) (i % 32) data poison) }

/-- BROADCAST_DELIVERY (R166, R192): an open region's shadow takes the part too (R215). -/
def execBroadcastDelivery (s : State) : Outcome :=
  onDue s fun p s =>
    match p.ev with
    | .bcast c k n gen i data poison l =>
      let y := s.ctx c k
      let x := mget y.arr Arrival.zero n
      if y.runs l && x.accepts gen i then
        let snap := y.region.snap.map fun q => (q.1.takePart (x.reg i) i data poison, q.2)
        s.setCtx c k { y with
          regs := y.regs.takePart (x.reg i) i data poison, region := { y.region with snap := snap }
          arr := mput y.arr n { x with recv := x.recv + 1 } }
      else s.setCtx c k { y with bcdrop := satInc y.bcdrop }
    | .bcastDone n => s.onCtx p.core p.ctx fun y => { y with ecnt := mput y.ecnt n (mget y.ecnt 0 n + 1) }
    | _ => s

/-! ### Engines -/

/-- ENGINE_ACQUIRE (R230, R232). -/
def execEngineAcquire (s : State) : Outcome :=
  onDue s fun p s => match p.ev with | .engAcquire c => engAcquire s c | _ => s

/-- ENGINE_COMMAND_START (R223). -/
def execEngineCommandStart (s : State) : Outcome :=
  onDue s fun p s => match p.ev with | .engStart e => engStart s e | _ => s

/-- ENGINE_RELEASE (R233): the results of a command that releases are performed; then its flag is written. -/
def execEngineRelease (s : State) : Outcome :=
  onDue s fun p s =>
    match p.ev with
    | .engEnd e =>
      match (s.engine e).cur with
      | some c =>
        let s := dropClaims (engPerform s e c)
        s.post (s.clock + 1 + Config.freeNat s.free) true 0 0 (.engRelease c)
      | none => s
    | .engRelease c => engRelease s c
    | _ => s

/-- COMMAND_END (R223): a command that makes no release ends with its last result write. -/
def execCommandEnd (s : State) : Outcome :=
  onDue s fun p s =>
    match p.ev with
    | .engEnd e =>
      match (s.engine e).cur with
      | some c => engFree (dropClaims (engPerform s e c)) c
      | none => s
    | _ => s

/-! ### Page walks (R290, R291) -/

/-- An unpinned entry enters a translation cache; a full cache drops a free choice of its unpinned entries. -/
def Core.cache (x : Core) (e : Tlb) (free : Nat) : Core :=
  let old := x.tlb.filter fun q => !(q.job == e.job && q.page == e.page && q.pinned.isNone)
  if old.length < 512 then { x with tlb := old ++ [e] }
  else
    let loose := old.filter fun q => q.pinned.isNone
    match loose[Config.freeNat free % (max 1 loose.length)]? with
    | some v => { x with tlb := old.filter (fun q => q != v) ++ [e] }
    | none => x

/-- The translation of a page table entry (R291). -/
def tlbOf (job : BitVec 16) (page : Nat) (e : BitVec 64) (pinned : Option (BitVec 64)) : Tlb :=
  ⟨job, page, (e.extractLsb' 21 27).toNat, e.getLsbD 62, e.getLsbD 61, pinned⟩

/-- PAGE_WALK (R291): the entry is cached, or the waiting bundle meets a demand fault. -/
def execPageWalk (s : State) : Outcome :=
  onDue s fun p s =>
    match p.ev with
    | .walk page =>
      let y := s.ctx p.core p.ctx
      let job := jobOf y.launch
      let s := match s.pteAt job page with | some pa => s.agentTouch 2 pa | none => s
      let e := s.pte job page
      if pteOk e then
        { s.setCore p.core ((s.core p.core).cache (tlbOf job page e none) s.free) with free := s.free + 1 }
      else s.setCtx p.core p.ctx { y with walkBad := some page }
    | _ => s

/-! ### Banks (R83, R210) -/

/-- BANK_WAKE (R83): a free context's access wakes a gated bank, within 1,700 cycles. -/
def execBankWake (s : State) : Outcome :=
  onDue s fun p s =>
    match p.ev with
    | .bankWake b => s.wakeBank b
    | _ => s

/-- BANK_AWAKE (R210): the queued writes are applied in arrival order. -/
def execBankAwake (s : State) : Outcome :=
  onDue s fun p s =>
    match p.ev with
    | .bankAwake b =>
      let x := s.bank b
      let s := { s with banks := mput s.banks b { x with state := 0, last := s.clock, queue := [] } }
      x.queue.foldl (fun s q => s.putCells 2 0 q.1 q.2) s
    | _ => s

/-- Whether a bank has been blank and without access for 65,536 cycles (R83). -/
def State.bankIdle (s : State) (b : Nat) : Bool :=
  (s.bank b).state == 0 && decide ((s.bank b).last + 65536 ≤ s.clock) &&
    (List.range 128).all fun i => s.mem.gallery.blank (0x100000000 + b * 0x200000 + i * 16384)

/-- The input that the step at hand takes. -/
def onInput (s : State) (f : Input → State → State) : Outcome :=
  let s' := { s with turn := .idle, cause := .none }
  match s.cause with
  | .input x => .next (f x s')
  | _ => .next s'

/-- BANK_POWER_GATE (R83): the slice's controller gates an idle bank. -/
def execBankPowerGate (s : State) : Outcome :=
  onInput s fun x s =>
    match x with
    | .bankPowerGate b =>
      if s.bankIdle b.toNat then { s with banks := mput s.banks b.toNat { s.bank b.toNat with state := 1 } } else s
    | _ => s

end Sys2Proof.Machine
end

