-- ==== Sys2Proof/Machine/Group.lean ====
section
/-! DEFINITION. Group time (R195 to R211): holds, tunes, the schedule offset; Dratrix frames (R202 to R206); scheduled packets at
output ports (R171 to R173); the end of a rollback (R217 to R219). -/

namespace Sys2Proof.Machine

/-! ### Holds (R209 to R211) -/

/-- Debug pacing of the group (R210): a breakpoint is set in a context that runs a timed task, here or by a peer's session. -/
def State.pacing (s : State) : Bool :=
  s.gs.paced || s.out.breaks.any fun b => match b with | .bundle c k _ _ => (s.ctx c.toNat k.toNat).timed | .instr _ _ => false

/-- The count at which a request freezes the counts (R209); a Callote stop in debug pacing, a peer's too, freezes at the stop's own
(R210). -/
def State.freezeAt (s : State) (h : Hold) : Nat := if h.stop ∧ s.pacing then h.count else h.count + s.gs.hLat

/-- Whether the counts freeze now: some request's count has come (R209). -/
def State.freezes (s : State) : Bool := !s.gs.frozen && s.gs.holds.any fun h => decide (s.freezeAt h ≤ s.now)

/-- Whether every request of a hold is over (R209). -/
def State.holdsOver (s : State) : Bool :=
  s.gs.holds.all fun h => match h.doneAt with | some t => decide (t ≤ s.clock) | none => false

/-- Whether the counts resume now. -/
def State.resumes (s : State) : Bool := s.gs.frozen && s.holdsOver

/-- HOLD_REQUEST (R209, R210). -/
def execHoldRequest (s : State) : Outcome :=
  onDue s fun p s => match p.ev with | .holdReq cause d => s.requestHold cause d | _ => s

/-- HOLD_RELAY (R209): a peer's request, made at count r and `ago` clocks before, is known here. A hold that it opens has no cause of this
package yet (R210). A peer's session takes the group into debug pacing, and out of it. -/
def execHoldRelay (s : State) : Outcome :=
  onInput s fun x s =>
    match x with
    | .holdRelay r ago peer stop =>
      let h : Hold := { cause := 6, clock := s.clock - ago, count := r.toNat, doneAt := none, peer := peer + 1, stop := stop }
      { s with gs := { s.gs with holds := s.gs.holds ++ [h], causes := if s.gs.holds.isEmpty then 0 else s.gs.causes } }
    | .peerPacing on => { s with gs := { s.gs with paced := on } }
    | _ => s

/-- The traffic that an overrun boundary still waits for goes on by the clock while the counts stand (R180, log 29). -/
def State.drainByClock (s : State) : State :=
  let open_ := s.ctl.launches.filterMap fun q =>
    match q.2.boundary with
    | some b => if b.overrun then some (BitVec.ofNat 64 q.1, b.mark) else none
    | none => none
  { s with agenda := s.agenda.map fun p =>
      if !p.onClock && open_.any fun q => p.drains q.1 q.2 then
        { p with onClock := true, due := s.clock + (p.due - s.now), stated := s.clock + (p.stated - s.now) }
      else p }

/-- COUNT_FREEZE (R209). -/
def execCountFreeze (s : State) : Outcome :=
  let s := s.drainByClock
  .next { s with turn := .idle, cause := .none
                 gs := { s.gs with frozen := true, frozenAt := s.clock, holdCount := satInc s.gs.holdCount } }

/-- END_NOTICE (R209): of this package's rollback, or of a peer. -/
def execEndNotice (s : State) : Outcome :=
  match s.cause with
  | .due p =>
    let s := s.taken p
    match p.ev with
    | .endNotice cause d => .next (s.noticeHold cause (some (s.ctx p.core p.ctx).region.detectClock) d)
    | _ => .next s
  | _ =>
    onInput s fun x s =>
      match x with
      | .endNotice peer d =>
        { s with gs := { s.gs with holds := endRequest 6 (peer + 1) none s.gs.hLat (fun _ => d) s.gs.holds } }
      | _ => s

/-- The operations in flight of a timed context that ran on the clock are due by the count again. -/
def toCount (s : State) (c k : Nat) : State :=
  { s with agenda := s.agenda.map fun p =>
      if p.core == c && p.ctx == k && p.onClock && (p.ev.ofBundle || p.ev.sent) then
        { p with onClock := false, due := s.now + (p.due - s.clock), stated := s.now + (p.stated - s.clock) }
      else p }

/-- HOLD_RESUME (R209, R218): the counts go on; a context that caught up is level with the count. -/
def execHoldResume (s : State) : Outcome :=
  let behind := s.cores.flatMap fun q => q.2.ctxs.filterMap fun x => if x.2.lag ≠ 0 ∧ x.2.timed then some (q.1, x.1) else none
  let s1 := behind.foldl (fun s q => (toCount s q.1 q.2).onCtx q.1 q.2 fun y => { y with lag := 0 }) s
  .next { s1 with turn := .idle, cause := .none, gs := { s1.gs with frozen := false, holds := [] } }

/-- The stated latency of a stacks access in flight (R69, R77); none of an access to another level. -/
def Pending.stacksLat (s : State) (p : Pending) : Option Nat :=
  match p.ev with
  | .xch leaf a b => if a.lvl = 3 ∨ b.lvl = 3 then some (s.stackLat true (if leaf then 512 else 1024)) else none
  | _ => if p.lvl = 3 then some (s.stackLat true 900) else none

/-- Whether a timed context has a stacks access in flight that issued 64 cycles ago (R69). -/
def State.stacksAt64 (s : State) : Bool :=
  s.agenda.any fun p => !p.onClock && decide (p.ctx < 4) && (s.ctx p.core p.ctx).timed &&
    match p.stacksLat s with
    | some n => decide (p.stated + 64 = s.now + n)
    | none => false

/-- STACKS_HOLD_REQUEST (R69, R210): the base die cannot meet the bound of a timed stacks access, as it finds at the access's issue + 64;
the data come later. -/
def execStacksHoldRequest (s : State) : Outcome :=
  onInput s fun x s =>
    match x with
    | .stacksHoldRequest inHand =>
      if s.stacksAt64 then s.requestHold 3 (some inHand) else s
    | _ => s

/-! ### Tunes and the offset (R198 to R201) -/

/-- The tune that an offset makes due (R198): +1 from a whole cycle up, -1 from a whole cycle down. -/
def dueOf (o : BitVec 16) : BitVec 2 := if 16 ≤ o.toInt then 1 else if o.toInt ≤ -16 then 3 else 0

/-- The package measures its schedule offset (R198, R201). -/
def State.measured (s : State) (offset : BitVec 16) : State :=
  let o : BitVec 16 := if s.gs.leader then 0 else offset
  let s := { s with gs := { s.gs with offset := o, due := dueOf o } }
  if (33 ≤ o.toInt ∨ o.toInt ≤ -33) ∧ !s.gs.desync then
    let cores := s.cores.map fun q =>
      (q.1, { q.2 with ctxs := q.2.ctxs.map fun x =>
        (x.1, if x.2.timed then { x.2 with ptrap := some (0x17, o.signExtend 64, 0) } else x.2) })
    { s with gs := { s.gs with desync := true }, cores := cores }
  else s

/-- TUNE_DUE (R198). -/
def execTuneDue (s : State) : Outcome :=
  onInput s fun x s => match x with | .tuneDue o => s.measured o | _ => s

/-- GROUP_DESYNC (R201); the control complex clears the sticky bit (R198). -/
def execGroupDesync (s : State) : Outcome :=
  onInput s fun x s =>
    match x with
    | .groupDesync o => s.measured o
    | .clearDesync => { s with gs := { s.gs with desync := false } }
    | _ => s

/-! ### Dratrix (R202 to R206) -/

/-- A void frame (R203). -/
def voidFrame (number : BitVec 32) : Frame := frameSealed ⟨number, 0, 0, false, 0xFFFFFFFF, 0, 0⟩

/-- The number of the frame that starts at the count (R202). -/
def State.frameNumber (s : State) : BitVec 32 := BitVec.ofNat 32 (s.now / 16)

/-- The frame that a port has sent under a number. -/
def Port.sentAt (x : Port) (n : BitVec 32) : Option Frame := x.sent.find? fun f => f.number == n

/-- The bound ports whose frame of this slot has not started (R202). -/
def State.slotPorts (s : State) : List Nat :=
  if s.now % 16 ≠ 0 then []
  else (s.ports.filter fun q => q.2.bound.isSome && q.2.locked && (q.2.sent.getLast?.map Frame.number) != some s.frameNumber ||
    q.2.bound.isSome && q.2.locked && s.gs.desync && (q.2.sent.getLast?.map Frame.sent) == some true).map Prod.fst

/-- FRAME_SLOT (R202, R203): each bound port's frame starts, void if no core has sent, or if the package has left the schedule
(R201). -/
def execFrameSlot (s : State) : Outcome :=
  let n := s.frameNumber
  let s := { s with turn := .idle, cause := .none }
  .next (s.slotPorts.foldl (fun s p =>
    let x := s.port p
    let f := match x.sentAt n with | some f => if s.gs.desync then voidFrame n else f | none => voidFrame n
    let kept := x.sent.filter fun g => g.number != n && decide ((n - g.number).toNat ≤ x.ld.toNat / 16 + 1)
    { s with ports := mput s.ports p { x with sent := kept ++ [f] } }) s)

/-- The counters of a port are cleared by the control complex (R206). -/
def Port.cleared (x : Port) : Port := { x with voids := 0, chk := 0, misplaced := 0, vtaken := false }

/-- FRAME_ARRIVAL (R203): the hub holds the frame for its window; a failed check counts and makes it void. -/
def execFrameArrival (s : State) : Outcome :=
  onInput s fun x s =>
    match x with
    | .frameArrival p f =>
      let q := s.port p.toNat
      if q.dead || !q.locked then s
      else
        let q := if frameGood f then q else { q with chk := satInc q.chk }
        let kept := (q.arrived.filter fun g => g.number != f.number).drop (q.arrived.length - 511)
        { s with ports := mput s.ports p.toNat { q with arrived := kept ++ [f] } }
    | .clearPort p => { s with ports := mput s.ports p.toNat (s.port p.toNat).cleared }
    | _ => s

/-- LINK_LOCK_LOSS (R193); another package of the group tells whether the link of one of its ports has an Ld (R202, log 51). -/
def execLinkLockLoss (s : State) : Outcome :=
  onInput s fun x s =>
    match x with
    | .linkLockLoss p => { s with ports := mput s.ports p.toNat { s.port p.toNat with locked := false, dead := true } }
    | .farLink g p on =>
      let far := s.gs.far.filter fun q => q != (g.toNat, p.toNat)
      { s with gs := { s.gs with far := if on then far ++ [(g.toNat, p.toNat)] else far } }
    | _ => s

/-! ### Packets at output ports (R171 to R173) -/

/-- The key of an output port's table and counters. -/
def netKey (bulk : Bool) (router : BitVec 6) (port : BitVec 5) : Nat :=
  ((if bulk then 64 else 0) + router.toNat) * 32 + port.toNat

/-- A value of zeros of the same class, without poison. -/
def LVal.zeroed : LVal → LVal
  | .s _ => .s SVal.zero
  | .v x => .v ⟨0, x.tag, 0, false, false⟩

/-- A discarded packet (R172): a load lands zeros, a write or message does not happen, and an exchanged part is left at its
destination, which of the two no rule says, as zeros with poison. A beat's read lands
zeros, which the model takes for all the data of the beat; of a feed no term is left then (log 43). The core's frame for a port does not
start (R203). -/
def discard (s : State) (x : Packet) : State :=
  let op := x.op
  match x.kind with
  | .frame =>
    { s with ports := mput s.ports op { s.port op with sent := (s.port op).sent.filter fun f => f.number != s.frameNumber } }
  | _ =>
  match s.agenda.find? fun p => p.seq == op with
  | none => s
  | some p =>
    let replace := fun (ev : Ev) => { s with agenda := s.agenda.map fun q => if q.seq == op then { q with ev := ev } else q }
    match p.ev with
    | .land f z y _ => replace (.land f (z.map LVal.zeroed) (y.map LVal.zeroed) 0)
    | .fill r v => replace (.fill r { VVal.zero with tag := v.tag })
    | .live i cx _ _ => replace (.live i cx 0 none)
    | .pushRow c j b16 row => replace (.pushRow c j b16 (row.map fun _ => ⟨false, 0, 0⟩))
    | .gfeedSum c b16 a xs ys => replace (.gfeedSum c b16 a (xs.map fun _ => ⟨false, 0, 0⟩) (ys.map fun _ => ⟨false, 0, 0⟩))
    | .feedSum n op acc cols => replace (.feedSum n op acc (cols.map fun _ => columnTerm op 0 []))
    | .xch _ a b =>
      let (d, s) := s.draw
      let l := if d % 2 = 0 then a else b
      let (part, n) := match x.kind with | .exchangeBeat i n => (i.toNat, min 8 n.toNat) | _ => (0, 0)
      let parts := (List.range n).map fun i => l.pa / 16 + part + i
      { s with
        agenda := s.agenda ++ [{ p with lvl := l.lvl, ctx := 4 + p.ctx % 4, seq := s.free, ev := .write (parts.flatMap fun i => cellsOf (16 * i) 16 0)
                                          (parts.map fun i => (i, true)) none }]
        free := s.free + 1 }
    | .write .. | .redux .. | .msg .. | .bcast .. => { s with agenda := s.agenda.filter fun q => q.seq != op }
    | _ => s

/-- Counts a slot miss, or a collision (R173). -/
def State.countNet (s : State) (key : Nat) (coll : Bool) : State :=
  let w := mget s.netctr 0 key
  let w := if coll then satInc (w.extractLsb' 32 32) ++ w.extractLsb' 0 32 else w.extractLsb' 32 32 ++ satInc (w.extractLsb' 0 32)
  { s with netctr := mput s.netctr key w }

/-- The collisions that the output ports have counted since they were last cleared (R173). -/
def State.collisions (s : State) : Nat := (s.netctr.map fun q => (q.2.extractLsb' 32 32).toNat).sum

/-- Whether a packet is a scheduled one of an operation in flight, whose context was timed at its issue, on the network that carries it (R169,
R170). -/
def State.carries (s : State) (x : Packet) : Bool :=
  match x.kind with
  | .frame => !x.bulk
  | _ => s.agenda.any fun p => p.seq == x.op && p.core == x.core.toNat && p.ev.bulk == x.bulk && p.sched

/-- PACKET_AT_PORT (R172): in an unmarked slot a scheduled packet is a slot miss; of two in one cycle the one of the lower core, or
of the earlier operation, passes. The cycle in which a packet of an operation reaches a port is the outside's: R168 gives no latency of a
port, and the table of R68 is not computed from it (log 43). The control complex clears a port's counters (R173). -/
def execPacketAtPort (s : State) : Outcome :=
  onInput s fun x s =>
    match x with
    | .packetAtPort p =>
      let key := netKey p.bulk p.router p.port
      if (outPort p.router.toNat p.port.toNat).isNone || !(s.carries p) then s
      else if !(mget s.slots 0 key).getLsbD (s.now % 64) then discard (s.countNet key false) p
      else
        let here := { s with lastPacket := mput s.lastPacket key (s.now, p) }
        match s.lastPacket.find? fun q => q.1 == key with
        | some (_, t, q) =>
          if t ≠ s.now then here
          else if p.core.toNat < q.core.toNat ∨ (p.core = q.core ∧ p.op < q.op) then discard (here.countNet key true) q
          else discard (s.countNet key true) p
        | none => here
    | .clearNet bulk router port => { s with netctr := mdel s.netctr (netKey bulk router port) }
    | _ => s

/-! ### The end of a rollback (R217 to R219) -/

/-- RERUN_COMPARE (R218, R219): reruns that agree stand, and a timed context stays behind the count until the hold ends; otherwise
the core is retired. -/
def execRerunCompare (s : State) : Outcome :=
  onDue s fun p s =>
    let c := p.core
    let k := p.ctx
    let y := s.ctx c k
    let r := y.region
    if r.stage = 2 ∧ r.bundles = r.bundles1 ∧ r.sig = r.sig1 then
      let s := s.setCtx c k { y with region := Region.zero, lag := if y.timed then y.lag else 0 }
      if y.timed ∧ y.lag = 0 then toCount s c k else s
    else if r.stage = 0 then s
    else retireCore s c

end Sys2Proof.Machine
end

