-- ==== Sys2Proof/Machine/Complex.lean ====
section
/-! DEFINITION. The control complex's own tables: its memory (R262), cancelled launches (R252, R261), the journal (R262, R322), the kick
bitmap (R243), power headroom (R255), level counters (R247, R251), colophons and signals (R258 to R260), the measurement log (R297), the supervisors'
queues (R276). -/

namespace Sys2Proof.Machine

/-! ### Memory of the control complex -/

/-- What a control-complex address names: 0 its SRAM (R262), 2 the gallery and 3 the stacks by physical address (log 21). -/
def ccLevel (a : Nat) : Option Nat :=
  if 0x40000000 ≤ a ∧ a < 0x40100000 then some 0
  else
    match lvlOf a with
    | some 2 => some 2
    | some 3 => some 3
    | _ => none

/-- The byte at a control-complex address; a part that an exchange has swapped is read where its contents now lie (R78). -/
def State.ccByte (s : State) (a : Nat) : Byte :=
  match ccLevel a with
  | some 0 => Memory.read s.mem.sram a
  | some l => let q := s.resolve 512 0 l 0 a; s.levelByte q.1 q.2.1 q.2.2
  | none => 0

/-- The little-endian number in `n` bytes at a control-complex address. -/
def State.ccRead (s : State) (a n : Nat) : Nat := wordAt s.ccByte a n

/-- The parts that cells cover whole: a write of all of a part ends its poison (R70). -/
def fullParts (cells : List (Nat × Byte)) : List (Nat × Bool) :=
  ((cells.map fun c => c.1 / 16).dedup.filter fun p => (List.range 16).all fun i => cells.any fun c => c.1 == 16 * p + i).map
    fun p => (p, false)

/-- Writes cells at control-complex addresses, in a part that an exchange has swapped where its contents now lie (R78); those that no
memory holds are dropped. -/
def State.ccPut (s : State) (cells : List (Nat × Byte)) : State :=
  let at_ := fun l => cells.filter fun c => ccLevel c.1 == some l
  let s := { s with mem := { s.mem with sram := Memory.writeAll s.mem.sram (at_ 0) } }
  let s := s.writeAs 512 0 2 0 (at_ 2) (fullParts (at_ 2))
  s.writeAs 512 0 3 0 (at_ 3) (fullParts (at_ 3))

/-- A control core's load reaches a gallery bank: a gated one wakes, another's idle time starts again (R83). -/
def State.ccTouch (s : State) (a : Nat) : State := if ccLevel a = some 2 then s.agentTouch 2 a else s

/-! ### The journal's place (R262) -/

/-- The address of entry `n` (R262). -/
def journalAt (n : Nat) : Nat := 0x40000000 + 32 * ((n - 1) % 16384)

/-- Whether the journal is full (R262). -/
def Complex.journalFull (x : Complex) : Bool := decide (x.zjhead.toNat + 16384 ≤ x.zjtail.toNat + 1)

/-! ### Cancelling (R252, R261) -/

/-- Whether zcancel affects a launch: state 1 or 2, and its final boundary has not opened. -/
def State.cancellable (s : State) (l : BitVec 64) : Bool :=
  let x := s.launch l
  (x.state == 1 || x.state == 2) && !x.cancelled &&
    !(match x.boundary with | some b => b.final && decide (b.opened ≤ s.now) | none => false)

/-- The launches that depend on those of a list, in turn (R261). -/
def State.dependants (s : State) (ls : List (BitVec 64)) : Nat → List (BitVec 64)
  | 0 => ls
  | fuel + 1 =>
    let new := s.ctl.launches.filterMap fun q =>
      let m := BitVec.ofNat 64 q.1
      if !ls.contains m && s.cancellable m && q.2.preds.any fun d => ls.contains d then some m else none
    if new.isEmpty then ls else s.dependants (ls ++ new) fuel

/-- The starts of tasks of launches are dropped: none of them waits to start any more (R6, R261). -/
def State.dropStarts (s : State) (ls : List (BitVec 64)) : State :=
  { s with agenda := s.agenda.filter fun p =>
      match p.ev with | .taskStart l _ _ _ | .waveStart l _ _ _ => !ls.contains l | _ => true }

/-- Cancels launches with their dependants (R252, R261): at once in state 1; in state 2 the contexts halt within 128 cycles, and a final
boundary that has not opened never does. -/
def State.cancelAll (s : State) (ls : List (BitVec 64)) : State × Nat :=
  let ls := s.dependants (ls.filter s.cancellable) s.ctl.launches.length
  let s := s.dropStarts ls
  let s := ls.foldl (fun s m =>
    let x := s.launch m
    let (d, s) := s.draw
    let s := s.setLaunch m { x with
      cancelled := true, waves := [], state := if x.state = 1 then 5 else x.state
      boundary := match x.boundary with | some b => if b.final then none else some b | none => none }
    s.post (s.clock + if x.state = 1 then 0 else d % 129) true 0 0 (.launchDone m)) s
  (s, ls.length)

/-! ### The journal (R242, R262, R322) -/

/-- A launch whose enqueue record has been appended is enqueued (R252): a record of op 1 names it, and may name an extra predecessor of
the same job and step (R322); one that has been cancelled cancels it. Every other record is a scheduler's own. -/
def State.noteEnqueue (s : State) (payload : List Byte) : State :=
  let l := BitVec.ofNat 64 (leWord ((payload.drop 8).take 8))
  let x := s.launch l
  if leWord (payload.take 8) ≠ 1 ∨ x.state = 0 then s
  else
    let dep := l.extractLsb' 32 32 ++ BitVec.ofNat 32 (leWord ((payload.drop 20).take 4))
    let preds := if (payload[18]?).getD 0 = 1 ∧ !x.preds.contains dep then x.preds ++ [dep] else x.preds
    let s := s.setLaunch l { x with enqueued := true, preds := preds }
    if preds.any fun m => (s.launch m).cancelled then (s.cancelAll [l]).1 else s

/-- Appends an entry with 24 bytes of payload and gives its sequence number; a full journal gives 0 (R242). -/
def State.journal (s : State) (payload : List Byte) : State × BitVec 64 :=
  if s.ctl.journalFull then (s, 0)
  else
    let n := s.ctl.zjtail + 1
    let s := { s with mem := { s.mem with
      sram := Memory.writeAll s.mem.sram (cellsOfBytes (journalAt n.toNat) (leBytes 8 n.toNat ++ payload.take 24)) } }
    (({ s with ctl := { s.ctl with zjtail := n } }).noteEnqueue payload, n)

/-- The payload of an enqueue record (R322); `dep` is bits 31:0 of an extra predecessor's identifier. -/
def enqueueRecord (launch : BitVec 64) (queue : BitVec 8) (prio : BitVec 3) (dep : Option (BitVec 32)) : List Byte :=
  leBytes 8 1 ++ leBytes 8 launch.toNat ++ [queue, prio.zeroExtend 8, if dep.isSome then 1 else 0, 0] ++
    leBytes 4 (dep.getD 0).toNat

/-! ### The kick bitmap (R243, R253) -/

/-- Sets a kick bit; a set that finds its bit set sets the re-kick latch. -/
def State.kick (s : State) (n : Nat) : State :=
  let x := s.ctl
  if x.kick.getLsbD n then { s with ctl := { x with rekick := setBit x.rekick n true } }
  else { s with ctl := { x with kick := setBit x.kick n true } }

/-- Clears a kick bit; a clear that finds the latch set clears the latch and leaves the bit. -/
def State.unkick (s : State) (n : Nat) : State :=
  let x := s.ctl
  if x.rekick.getLsbD n then { s with ctl := { x with rekick := setBit x.rekick n false } }
  else { s with ctl := { x with kick := setBit x.kick n false } }

/-- The lowest set kick bit at or above `lo`; all ones with none (R242). -/
def Complex.scan (x : Complex) (lo : Nat) : BitVec 64 :=
  match (List.range 4096).find? fun i => decide (lo ≤ i) && x.kick.getLsbD i with
  | some i => BitVec.ofNat 64 i
  | none => BitVec.allOnes 64

/-! ### Queues and enqueues (R252, R253) -/

/-- A queue (R252). -/
def State.queue (s : State) (q : BitVec 8) : Queue := mget s.ctl.queues queueZero q.toNat

/-- An enqueue is journalled and then its queue's bit is kicked (R243, R253); an extra predecessor is a launch of the same job and
step (R322); a full journal enqueues nothing. -/
def State.enqueue (s : State) (launch : BitVec 64) (queue : BitVec 8) (prio : BitVec 3) (dep : Option (BitVec 32)) :
    State × BitVec 64 :=
  let (s', n) := s.journal (enqueueRecord launch queue prio dep)
  if n = 0 then (s, 0) else (s'.kick queue.toNat, n)

/-! ### Power (R255) -/

/-- zroom: limit - ceil(watts / 10) - the declared energy of the launches started in the last 850 cycles (R255). -/
def State.zroom (s : State) : BitVec 64 :=
  let sum := s.ctl.starts.foldl (fun n q => if s.now < q.1 + 850 then n + q.2 else n) 0
  let v : Int := (s.ctl.zplim.toNat : Int) - ((s.ctl.zpmeas.toNat + 9) / 10 : Nat) - (sum : Nat)
  (BitVec.ofInt 32 v).zeroExtend 64

/-! ### Levels (R246, R247, R251) -/

/-- The prefix of an identifier at a level: 0 launch, 1 graph, 2 step, 3 job (R246). -/
def prefixOf (lvl : Nat) (l : BitVec 64) : Nat := l.toNat / 2 ^ (16 * lvl)
/-- The key of a level's entry. -/
def levelKey (lvl : Nat) (l : BitVec 64) : Nat := lvl * 2 ^ 64 + prefixOf lvl l

/-- A level that no plan has declared. -/
def levelZero : Level := ⟨0, 0, false⟩

/-- The counter of a level increments; a level that completes increments the one above it in the same cycle (R247). -/
def bumpLevel (ls : SMap Level) (l : BitVec 64) (lvl : Nat) : Nat → SMap Level
  | 0 => ls
  | fuel + 1 =>
    let x := mget ls levelZero (levelKey lvl l)
    let ls := mput ls (levelKey lvl l) { x with count := x.count + 1 }
    if x.count + 1 = x.size then bumpLevel ls l (lvl + 1) fuel else ls

/-- The launches of a level: their identifiers. -/
def State.launchesIn (s : State) (lvl : Nat) (l : BitVec 64) : List (BitVec 64) :=
  s.ctl.launches.filterMap fun q =>
    let m := BitVec.ofNat 64 q.1
    if prefixOf lvl m = prefixOf lvl l then some m else none

/-- The level word (R251, R261). -/
def State.levelWord (s : State) (lvl : Nat) (l : BitVec 64) : BitVec 64 :=
  if !mhas s.ctl.levels (levelKey lvl l) then 0
  else
    let x := mget s.ctl.levels levelZero (levelKey lvl l)
    let over_ := (s.launchesIn lvl l).all fun m => decide (4 ≤ (s.launch m).state)
    let st : BitVec 3 := if x.cancelled && over_ then 5 else if x.count = x.size then 4 else 2
    BitVec.ofNat 32 x.count ++ BitVec.ofNat 24 x.size ++ 0#5 ++ st

/-- The launch status word (R251). -/
def Launch.word (x : Launch) : BitVec 64 :=
  BitVec.ofNat 32 x.ended ++ x.queue ++ x.skew ++ x.ovr ++ BitVec.ofBool x.defer ++ BitVec.ofBool x.strict ++
    BitVec.ofBool x.timed ++ 0#2 ++ BitVec.ofNat 3 x.state

/-- What zcolo returns (R251): a launch status word, a level word, or 0. -/
def State.colo (s : State) (l : BitVec 64) (lvl : BitVec 64) : BitVec 64 :=
  if lvl = 0 then (if mhas s.ctl.launches l.toNat then (s.launch l).word else 0)
  else if lvl.toNat ≤ 3 then s.levelWord lvl.toNat l
  else 0

/-! ### Colophons and signals (R258 to R260) -/

/-- The status bits of a colophon (R259). -/
def Launch.status (x : Launch) : Nat :=
  (if x.faulted = 0 ∧ !x.cancelled then 1 else 0) + (if x.faulted ≠ 0 then 2 else 0) + (if x.cancelled then 4 else 0) +
    (if x.preempted then 8 else 0) + (if x.conflict then 16 else 0) + (if x.defer then 32 else 0) + (if x.coreLost then 64 else 0)

/-- The 64 bytes of a colophon (R259). -/
def Launch.colophonBytes (x : Launch) (l : BitVec 64) : List Byte :=
  leBytes 8 l.toNat ++ leBytes 4 x.status ++ leBytes 4 x.faults ++ leBytes 8 x.t0 ++ leBytes 8 x.endCycle ++
    leBytes 8 x.digest.toNat ++ leBytes 4 x.completed ++ leBytes 4 x.faulted ++
    leBytes 4 (Config.energy l.toNat x.endCycle).toNat ++ leBytes 4 x.holdCycles ++ leBytes 4 x.qseq.toNat ++ leBytes 4 0x4F4C4F43

/-- The colophon is written with the next number of its queue (R258, R259). -/
def State.writeColophon (s : State) (l : BitVec 64) : State :=
  let q := s.queue (s.launch l).queue
  let x := { s.launch l with qseq := q.seq + 1 }
  let x := { x with written := x.colophonBytes l }
  let s := { s with ctl := { s.ctl with queues := mput s.ctl.queues x.queue.toNat { q with seq := q.seq + 1 } } }
  (s.setLaunch l x).ccPut (cellsOfBytes x.colophon.toNat x.written)

/-- The signal of a launch, in one cycle (R258, R260): its state, its graph's counter with the cascade, its queue's hash, which takes the
colophon as it was written, its kick bit. -/
def State.signal (s : State) (l : BitVec 64) : State :=
  let x := s.launch l
  let q := s.queue x.queue
  let q' := { q with hash := sha512 (q.hash ++ x.written), chained := x.qseq, launch := l }
  let ctl := { s.ctl with levels := bumpLevel s.ctl.levels l 1 3, queues := mput s.ctl.queues x.queue.toNat q' }
  let s := ({ s with ctl := ctl }).setLaunch l { x with state := if x.cancelled then 5 else 4 }
  if x.kick.toNat < 4096 then s.kick x.kick.toNat else s

/-! ### Measurements (R297) -/

/-- Appends a record to the measurement log and extends the running measurement (R297). -/
def State.record (s : State) (kind key : Nat) (digest : List Byte) (launch : BitVec 64) : State :=
  let r := leBytes 8 (s.out.records.length + 1) ++ leBytes 4 kind ++ leBytes 4 key ++ digest ++ leBytes 8 launch.toNat ++
    leBytes 8 s.now ++ List.replicate 32 0
  { s with out := { s.out with records := s.out.records ++ [r], measure := sha512 (s.out.measure ++ r) } }

/-! ### Supervisors (R276) -/

/-- The mailbox of a context in the control complex's SRAM (R276). -/
def mailboxAt (c k : Nat) : Nat := 0x400C0000 + 128 * (4 * c + k)

/-- SUPERVISOR_TRAP (R276): the record is written to the context's mailbox, and the context is queued for its supervisor, once. -/
def execSupervisorTrap (s : State) : Outcome :=
  onDue s fun p s =>
    match p.ev with
    | .supervisor cc =>
      let y := s.ctx p.core p.ctx
      let n := if y.task.isSome then (s.launch y.launch).supervisor.toNat else cc
      let words := (List.range 16).flatMap fun i => cellsOf (mailboxAt p.core p.ctx + 8 * i) 8 (mget y.record.words 0 i).toNat
      let s := { s with mem := { s.mem with sram := Memory.writeAll s.mem.sram words } }
      let x := s.cc n
      s.setCC n { x with trapq := x.trapq.filter (fun q => q != (p.core, p.ctx)) ++ [(p.core, p.ctx)] }
    | _ => s

end Sys2Proof.Machine
end

