-- ==== Sys2Proof/Machine/Launches.lean ====
section
/-! DEFINITION. Launches: loading (R5, R6, R9, R165, R171, R193), timed and seeded placement (R249, R250), zlaunch (R265), the launches
that Callote requests (R91, R164), the start of waves (R250), completion (R258), cancelling (R261, R266), the spares of retired cores
(R288, R289). -/

namespace Sys2Proof.Machine

/-! ### Where tasks run -/

/-- The tasks of a timed launch that this package runs: task, core, context (R249, log 1). -/
def Launch.tasksHere (x : Launch) : List (Nat × Nat × Nat) :=
  x.placement.zipIdx.filterMap fun q => if q.1.1 < 512 then some (q.2, q.1.1, q.1.2) else none

/-- Whether a core is in service; at a trip none is (R308). -/
def State.serving (s : State) (c : Nat) : Bool := s.out.stage != 3 && !(s.core c).retired && !(s.core c).oos

/-- The eligible cores in service, in ascending number (R250). -/
def State.eligible (s : State) (x : Launch) : List Nat := (List.range 512).filter fun c => x.eligible.getLsbD c && s.serving c

/-- The contexts that a mask names, in ascending number. -/
def maskCtxs (m : BitVec 4) : List Nat := (List.range 4).filter fun k => m.getLsbD k

/-- The first core from `j` on, cyclically, that has a free slot (R250). -/
def probe (used : List Nat) (c n j : Nat) : Nat → Nat
  | 0 => j
  | fuel + 1 => if used[j]?.getD 0 = c then probe used c n ((j + 1) % n) fuel else j

/-- The core that task `t` draws (R250). -/
def drawCore (seed : BitVec 64) (used : List Nat) (c n t : Nat) : Nat :=
  let pick := fun (k : Nat) => (mix seed (BitVec.ofNat 64 (t + 2 ^ 32 * k))).toNat % n
  match (List.range 64).find? fun k => decide (used[pick k]?.getD 0 < c) with
  | some k => pick k
  | none => probe used c n (pick 0) n

/-- The placement of a seeded launch: task, core, context, wave (R250). -/
def seededPlaces (seed : BitVec 64) (cores ctxs : List Nat) (tasks : Nat) : List (Nat × Nat × Nat × Nat) :=
  let n := cores.length
  let c := ctxs.length
  let go := fun (acc : List Nat × Nat × List (Nat × Nat × Nat × Nat)) (t : Nat) =>
    let (used, wave) := if acc.1.all (fun u => u == c) then (List.replicate n 0, acc.2.1 + 1) else (acc.1, acc.2.1)
    let j := drawCore seed used c n t
    let slot := used[j]?.getD 0
    (used.set j (slot + 1), wave, acc.2.2 ++ [(t, cores[j]?.getD 0, ctxs[slot]?.getD 0, wave)])
  ((List.range tasks).foldl go (List.replicate n 0, 0, [])).2.2

/-- The tasks on a core that run, wait to start or are stopped (R6): launch and task. -/
def State.tasksOn (s : State) (c : Nat) : List (BitVec 64 × Nat) :=
  ((s.core c).ctxs.filterMap fun q => q.2.task.map fun t => (t.launch, t.id.toNat)) ++
  (s.agenda.filterMap fun p =>
    match p.ev with
    | .taskStart l t c' _ => if c' = c then some (l, t) else none
    | .waveStart l t c' _ => if c' = c then some (l, t) else none
    | _ => none) ++
  (s.ctl.launches.flatMap fun q => q.2.waves.filterMap fun w => if w.2.1 = c then some (BitVec.ofNat 64 q.1, w.1) else none)

/-- The tasks of a free launch: those that Callote has placed on named cores (R10), or those that are drawn (R250). -/
def State.freePlaces (s : State) (x : Launch) : List (Nat × Nat × Nat × Nat) :=
  if x.placement.isEmpty then seededPlaces x.seed (s.eligible x) (maskCtxs x.ctxMask) x.tasks
  else x.tasksHere.map fun q => (q.1, q.2.1, q.2.2, 0)

/-! ### What a launch loads -/

/-- The carrel slots of a directive's carve-out (R85). -/
def KCtx.slots (d : KCtx) : List Nat := (List.range d.cfol.toNat).map fun i => d.cbase.toNat / 16384 + i

/-- The carrel slots of a kernel's data sections (R165). -/
def Kernel.dataSlots (k : Kernel) : List Nat :=
  (k.data.flatMap fun x => if x.lvl = 1 then (List.range ((x.addr % 16384 + x.bytes.length + 16383) / 16384)).map
      (fun i => x.addr / 16384 + i) else []) ++
    k.marks.filterMap fun m => if lvlOf m.1 = some 1 then some (m.1 / 16384) else none

/-- The carrel slots that a kernel's sections and a task's carve-out name (R6, R85). -/
def Kernel.slotsFor (k : Kernel) (t : Nat) : List Nat := k.dataSlots ++ (k.ctxOf t).slots

/-- The carrel slots that a launch names on a core (R6): its sections, and the carve-outs of all its tasks there, ended ones too. -/
def State.slotsOn (s : State) (l : BitVec 64) (c : Nat) : List Nat :=
  let x := s.launch l
  let k := s.kernelOf x
  let there := (x.started.filter fun v => v.2.1 == c).map Prod.fst ++ ((s.tasksOn c).filter fun q => q.1 == l).map Prod.snd
  k.dataSlots ++ there.flatMap fun t => (k.ctxOf t).slots

/-- Whether a task of a launch would name a slot of another launch that runs on its core (R6, R265). -/
def State.slotClash (s : State) (l : BitVec 64) (k : Kernel) (t c : Nat) : Bool :=
  (s.tasksOn c).any fun q => q.1 != l && (s.slotsOn q.1 c).any fun a => (k.slotsFor t).contains a

/-- The physical address of a virtual address of a job (R291). -/
def State.physOf (s : State) (job : BitVec 16) (va : Nat) : Option Nat :=
  let e := s.pte job (pageOf va)
  if pteOk e then some ((e.extractLsb' 21 27).toNat * 0x200000 + va % 0x200000) else none

/-- Writes whole folios (R5, R19): each that cells or marks touch is zero outside its cells, not blank, and takes its mark. -/
def Store.loadFolios (x : Store) (cells : List (Nat × Byte)) (marks : List (Nat × BitVec 32)) : Store :=
  let folios := ((cells.map fun (c : Nat × Byte) => c.1 / 16384) ++ (marks.map fun (m : Nat × BitVec 32) => m.1 / 16384)).dedup
  let x := folios.foldl (fun x f => Store.makeBlank x (16384 * f)) x
  let x := Store.write x cells []
  let x := folios.foldl (fun (x : Store) f => { x with used := mput x.used f true }) x
  marks.foldl (fun (x : Store) m => if m.2 = 0xFFFFFFFF#32 then x else { x with marks := mput x.marks (m.1 / 16384) m.2 }) x

/-- The cells and marks of a kernel at a level, at physical addresses (R165). -/
def State.sectionCells (s : State) (job : BitVec 16) (k : Kernel) (lvl : Nat) : List (Nat × Byte) × List (Nat × BitVec 32) :=
  let phys := fun va => if lvl = 1 then some va else s.physOf job va
  (k.data.flatMap fun x =>
      if x.lvl = lvl then x.bytes.zipIdx.filterMap fun b => (phys (x.addr + b.2)).map fun a => (a, b.1) else [],
    k.marks.filterMap fun m => if lvlOf m.1 = some lvl then (phys m.1).map fun a => (a, m.2) else none)

/-- The gallery and stacks sections are written once (R165); a gated bank that is written wakes, and what a waking bank has queued for a
folio that is written is replaced (R210). -/
def State.loadShared (s : State) (job : BitVec 16) (k : Kernel) : State :=
  let g := s.sectionCells job k 2
  let h := s.sectionCells job k 3
  let banks := (g.1.map fun c => frameOf c.1).dedup.foldl (fun b f =>
    if (mget b ⟨0, 0, []⟩ f).state = 1 then mput b f ⟨0, s.clock, []⟩ else b) s.banks
  let folios := ((g.1.map fun (c : Nat × Byte) => c.1 / 16384) ++ g.2.map fun (m : Nat × BitVec 32) => m.1 / 16384).dedup
  let s := folios.foldl (fun s f => s.dropQueued 2 (16384 * f) 16384) { s with banks := banks }
  { s with mem := { s.mem with gallery := Store.loadFolios s.mem.gallery g.1 g.2, hbm := Store.loadFolios s.mem.hbm h.1 h.2 } }

/-- A core's carrel and instruction memory are loaded (R5, R6, R165): every other slot becomes blank, and the array takes its reset
values (R140), unless a task of another launch is on the core. Every bundle that failed is rewritten, whatever the launch (R283). -/
def State.loadCore (s : State) (l : BitVec 64) (k : Kernel) (c : Nat) : State :=
  let (cells, marks) := s.sectionCells (jobOf l) k 1
  let shared := (s.tasksOn c).any fun q => q.1 != l
  let x := if shared then s.mem.level 1 c else Store.zero
  let y := s.core c
  let y := { y with
    arr := if shared then y.arr else Arr.zero
    imem := k.code.zipIdx.foldl (fun m w => mput m (k.base + w.2) w.1) y.imem
    imemBad := []
    suspect := (y.suspect ++ y.imemBad).dedup }
  ({ s with mem := s.mem.setLevel 1 c (Store.loadFolios x cells marks) }).setCore c y

/-- The pages of a job whose entries carry the pin bit (R67, R291). -/
def State.pinnedPages (s : State) (job : BitVec 16) : List Nat :=
  let one := fun (far : Bool) (first n : Nat) =>
    if mhas s.tables (2 * job.toNat + if far then 1 else 0) then
      ((List.range n).map fun i => first + i).filter fun p => pteOk (s.pte job p) && (s.pte job p).getLsbD 60
    else []
  one false (pageOf (lvlBase 2)) 3584 ++ one true (pageOf (lvlBase 3)) 262144

/-- The pages that a kernel's sections touch, with those of the folios that take a mark (R165). -/
def Kernel.pages (k : Kernel) : List Nat :=
  (k.data.flatMap fun x =>
      if x.lvl = 1 ∨ 3 < x.lvl then []
      else (List.range ((x.addr % 0x200000 + max 1 x.bytes.length + 0x1FFFFF) / 0x200000)).map fun i => pageOf x.addr + i) ++
    k.marks.filterMap fun m => if lvlOf m.1 = some 2 ∨ lvlOf m.1 = some 3 then some (pageOf m.1) else none

/-- The pages that a launch pins (R67): those its kernel's sections touch, and those with the pin bit. -/
def State.pinsFor (s : State) (job : BitVec 16) (k : Kernel) : List Nat := (k.pages ++ s.pinnedPages job).dedup

/-- Loads a core's pinned entries (R67, R290). -/
def State.pinCore (s : State) (l : BitVec 64) (pages : List Nat) (c : Nat) : State :=
  pages.foldl (fun s p =>
    let e := s.pte (jobOf l) p
    if pteOk e then
      { s.setCore c ((s.core c).cache (tlbOf (jobOf l) p e (some l)) s.free) with free := s.free + 1 }
    else s) s

/-- A slot table written relative to T0, as it stands by the group cycle (R171). -/
def rotated (w : BitVec 64) (t0 : Nat) : BitVec 64 := w.rotateLeft (t0 % 64)

/-- The tables in force: the OR of those of the timed launches that run (R171). -/
def State.tablesInForce (s : State) : SMap (BitVec 64) :=
  s.ctl.launches.foldl (fun m q =>
    if q.2.state = 2 ∧ q.2.timed then q.2.slots.foldl (fun m e => mput m e.1 (mget m 0 e.1 ||| rotated e.2 q.2.t0)) m else m) []

/-! ### zlaunch (R249, R250, R265) -/

/-- The smallest multiple of 16 that is at least `n`. -/
def up16 (n : Nat) : Nat := (n + 15) / 16 * 16

/-- Whether a launch names another package, in a task or a port binding (R249). -/
def Launch.spread (x : Launch) : Bool := !x.far.isEmpty || x.placement.any fun p => decide (512 ≤ p.1)

/-- T0 of a timed launch started at this count (R249). -/
def State.startCycle (s : State) (x : Launch) : Nat :=
  up16 (s.now + 4096 + if x.spread then 2 * s.gs.hLat else 0)

/-- Whether a launch's tables, started at T0, meet a slot in force (R171). -/
def State.slotConflict (s : State) (x : Launch) (t0 : Nat) : Bool :=
  x.slots.any fun e => mget s.slots 0 e.1 &&& rotated e.2 t0 != 0

/-- The cores that a launch uses here. -/
def State.coresFor (s : State) (x : Launch) : List Nat :=
  if x.timed then (x.tasksHere.map fun q => q.2.1).dedup
  else ((s.freePlaces x).map fun q => q.2.1).dedup

/-- What zlaunch returns for a launch whose T0 would be `t0` (R265, R290). Once a takeover has found no candidate no launch starts, for
which R263 names no code; the model answers 3, and so for a port that another launch still binds (R193, log 51). -/
def State.zlaunchCode (s : State) (l : BitVec 64) (t0 : Nat) : Nat :=
  let x := s.launch l
  let k := s.kernelOf x
  if x.state ≠ 1 then 1
  else if s.ctl.noCandidate then 3
  else if x.timed && s.slotConflict x t0 then 2
  else if x.ports.any fun p => !(s.port p.1).linked || (s.port p.1).bound.isSome then 3
  else if x.timed then
    if x.tasksHere.any fun q =>
        s.placed q.2.1 q.2.2 || !s.serving q.2.1 || s.slotClash l k q.1 q.2.1
      then 3
    else if (s.coresFor x).any fun c =>
        decide (448 < ((s.core c).tlb.filter fun e => e.pinned.isSome).length + (s.pinsFor (jobOf l) k).length)
      then 3
    else 0
  else if (if x.placement.isEmpty then (s.eligible x).isEmpty else (s.coresFor x).any fun c => !s.serving c) then 3
  else if (if x.placement.isEmpty then (s.coresFor x).any fun c => s.slotClash l k 0 c
      else x.tasksHere.any fun q => s.slotClash l k q.1 q.2.1) then 3
  else 0

/-- Whether a launch binds a port of another package whose link has no Ld in the group, as that package has told (R193, R202). -/
def State.farUnlocked (s : State) (x : Launch) : Bool := x.far.any fun p => !s.gs.far.contains p

/-- The delays that Callote has injected hold for the launch that starts next (R222). -/
def State.bindDelays (s : State) (l : BitVec 64) : State :=
  { s with out := { s.out with delays := s.out.delays.map fun d => if d.launch.isNone then { d with launch := some l } else d } }

/-- Starts a launch (R5, R9, R193, R249, R250): its state is 2, its memory is loaded, and its tasks will start, those of a timed launch
at T0. -/
def State.startLaunch (s : State) (l : BitVec 64) (cc t0 : Nat) : State :=
  let x := s.launch l
  let k := s.kernelOf x
  let cores := s.coresFor x
  let s := (s.bindDelays l).loadShared (jobOf l) k
  let s := cores.foldl (fun s c => s.loadCore l k c) s
  let block := (List.range 64).flatMap fun i => leBytes 8 (mget x.params 0 i).toNat
  let s := s.ccPut (cellsOfBytes (leWord ((x.descriptor.drop 0x38).take 8)) block)
  let x := { x with state := 2, supervisor := BitVec.ofNat 2 cc
                    t0 := if x.timed then t0 else 0
                    waves := if x.timed then [] else s.freePlaces x }
  let s := s.setLaunch l x
  let s := x.ports.foldl (fun s p =>
    { s with ports := mput s.ports p.1 { s.port p.1 with bound := some l, core := BitVec.ofNat 9 p.2 } }) s
  let s := if x.timed then
      let s := cores.foldl (fun s c => s.pinCore l (s.pinsFor (jobOf l) k) c) s
      x.tasksHere.foldl (fun s q => s.post t0 false q.2.1 q.2.2 (.taskStart l q.1 q.2.1 q.2.2)) s
    else s
  let s := { s with slots := s.tablesInForce
                    ctl := { s.ctl with starts := s.ctl.starts ++ [(s.now, x.energy.toNat)] } }
  s.record 3 ((s.out.images[x.image]?.map Image.key).getD 0)
    (sha512 (x.descriptor ++ (s.out.images[x.image]?.map Image.digest).getD [])) l

/-- A word of the spare map (R289). -/
def State.spareOf (s : State) (i : Nat) : Spare := mget s.ctl.spare ⟨false, false, 0, 0⟩ i

/-- The spare of a retired core's router takes its number, if it is free and good (R288, R289). -/
def State.substitute (s : State) (c : Nat) : State :=
  let i := c / 16
  let w := s.spareOf i
  if (s.core c).retired && !w.used && !w.sfail then
    let w' := { w with used := true, sub := BitVec.ofNat 4 (c % 16), out := setBit w.out (c % 16) false }
    let s := s.setCore c { Core.zero with lat := (s.core c).lat }
    { s with mem := s.mem.setLevel 1 c Store.zero, ctl := { s.ctl with spare := mput s.ctl.spare i w' } }
  else s

/-- zlaunch by a control core (R265): the spares of the named cores have been taken before, or not (R288). The start of a launch that
has tasks on other packages is carried to them (R193, R249). -/
def State.zlaunch (s : State) (l : BitVec 64) (cc : Nat) : State × BitVec 64 :=
  let x := s.launch l
  let named := if x.timed ∨ !x.placement.isEmpty then (x.tasksHere.map fun q => q.2.1).dedup
    else (List.range 512).filter fun c => x.eligible.getLsbD c
  let (d, s) := s.draw
  let s := if d % 2 = 0 ∧ x.state = 1 then named.foldl State.substitute s else s
  let t0 := s.startCycle x
  let r := if s.zlaunchCode l t0 = 0 ∧ s.farUnlocked x then 3 else s.zlaunchCode l t0
  if r ≠ 0 then (s, BitVec.ofNat 64 r)
  else
    let s := s.startLaunch l cc t0
    (if x.spread then s.say 0x105 [] [l, BitVec.ofNat 64 (s.launch l).t0] else s, 0)

/-! ### Launches that Callote requests (R91, R164, R193) -/

/-- The launch that a request names (R10, R91, R164, R193): task p * q + i runs directive i of q on the core named p-th, on the directive's
own context n (R91, R249). A seeded request states neither the number of tasks
nor the contexts: the model runs a task for each core named, on that context, or context 0 (log 51). -/
def launchOfReq (s : State) (r : LaunchReq) (k : Kernel) : Launch :=
  let q := k.ctxs.length
  let cores := r.cores.map BitVec.toNat
  let far := fun (p : Nat) => (r.away[p]?).getD false
  let placed := cores.zipIdx.flatMap fun c => (List.range q).map fun i => (if far c.2 then 512 else c.1, (k.ctxOf i).n.toNat)
  let here := (cores.zipIdx.filter fun c => !far c.2).map Prod.fst
  let params := k.params.zipIdx.foldl (fun m p => if p.2 < 64 then mput m p.2 p.1 else m) ([] : SMap (BitVec 64))
  { launchZero with
    descriptor := List.replicate 64 0, kernel := r.kernel, image := r.image, queue := 0xFF
    timed := r.kind == .timed
    ctxMask := match r.ctx with | some m => BitVec.twoPow 4 m.toNat | none => 1
    tasks := if r.kind = .seeded then here.length else placed.length
    budget := r.budget.getD 0x100000000, seed := BitVec.ofNat 64 (Config.freeNat s.free)
    placement := if r.kind = .seeded then [] else placed
    eligible := if r.kind = .seeded then here.foldl (fun (m : BitVec 512) c => setBit m c true) 0 else 0
    params := r.params.foldl (fun m p => mput m p.1.toNat p.2) params
    ports := r.ports.map fun p => (p.2.toNat, p.1.toNat), far := r.far.map fun p => (p.1.toNat, p.2.toNat), slots := k.slots, state := 1 }

/-- Whether the carve-outs of two directives of a kernel overlap, where all of them run on one core (R85). -/
def Kernel.carvesMeet (k : Kernel) : Bool :=
  k.ctxs.zipIdx.any fun d => (k.ctxs.take d.2).any fun o => o.slots.any fun a => d.1.slots.contains a

/-- Whether a kernel may run as a request asks (R85, R91, R250): the carve-outs of its tasks on a core apart, at most one timed task on a
core, and a seeded launch of one free directive. -/
def requestOk (r : LaunchReq) (k : Kernel) : Bool :=
  !k.control && !k.ctxs.isEmpty && !r.cores.isEmpty &&
    (match r.kind with
    | .timed => decide ((k.ctxs.filter KCtx.timed).length ≤ 1) && !k.carvesMeet
    | .free => !k.carvesMeet
    | .seeded => k.ctxs.length == 1 && !(k.ctxs.any KCtx.timed))

/-! ### The start of waves -/

/-- WAVE_START (R250). -/
def execWaveStart (s : State) : Outcome :=
  onDue s fun p s => match p.ev with | .waveStart l t c k => startTask s l t c k | _ => s

/-! ### Cancelling (R261, R266) -/

/-- The levels that a cancel names: those whose prefix it carries, at its level and below (R261). -/
def cancelLevels (ls : SMap Level) (lvl : Nat) (l : BitVec 64) : SMap Level :=
  ls.map fun q =>
    let k := q.1 / 2 ^ 64
    if k ≤ lvl ∧ q.1 % 2 ^ 64 / 2 ^ (16 * (lvl - k)) = prefixOf lvl l then (q.1, { q.2 with cancelled := true }) else q

/-- zcancel (R261, R266): the launches affected, dependants included, and the state in which they are cancelled; their contexts halt
within 128 cycles. -/
def State.cancel (s : State) (lvl : Nat) (l : BitVec 64) : State × Nat :=
  ({ s with ctl := { s.ctl with levels := if lvl = 0 then s.ctl.levels else cancelLevels s.ctl.levels lvl l } }).cancelAll
    (s.launchesIn lvl l)

/-- A function of the engine commands is applied to each, wherever it stands. -/
def State.mapCommands (s : State) (f : Cmd → Cmd) : State :=
  { s with
    agenda := s.agenda.map fun p =>
      match p.ev with
      | .engAcquire c => { p with ev := .engAcquire (f c) }
      | .engRelease c => { p with ev := .engRelease (f c) }
      | _ => p
    engines := s.engines.map fun e => (e.1, { cur := e.2.cur.map f, shadow := e.2.shadow.map f, queue := e.2.queue.map f }) }

/-- The commands of a launch lose their release (R229, R261). -/
def State.dropReleases (s : State) (match_ : Cmd → Bool) : State :=
  s.mapCommands fun c => if match_ c then { c with releases := false } else c

/-- A context stops its task, which counts as neither completed nor faulted: its region is abandoned and its buffers are
discarded. -/
def State.stopTask (s : State) (c k : Nat) : State :=
  let s := s.dropRerun c k
  s.setCtx c k { (s.ctx c k).abandon with
    task := none, status := .noTask, held := none, lag := 0, ptrap := none, ldl := none, engWalk := none, pbuf := [], closed := [] }

/-- The contexts of a cancelled launch halt (R261). -/
def State.haltLaunch (s : State) (l : BitVec 64) : State :=
  let s := (s.ctxsOf l).foldl (fun s q => s.stopTask q.1 q.2) s
  let s := s.dropReleases fun c => c.launch == l
  match (s.launch l).boundary with
  | some _ => s
  | none => releaseClaims s l

/-- A launch that has ended holds nothing: its pinned entries, slot tables and ports are free (R171, R193,
R290), and delays injected for it end (R222). -/
def State.freeLaunch (s : State) (l : BitVec 64) : State :=
  let cores := s.cores.map fun q => (q.1, { q.2 with tlb := q.2.tlb.filter fun e => e.pinned != some l })
  let ports := s.ports.map fun q => (q.1, if q.2.bound = some l then { q.2 with bound := none } else q.2)
  let s := { s with cores := cores, ports := ports, out := { s.out with delays := s.out.delays.filter fun d => d.launch != some l } }
  { s with slots := s.tablesInForce }

/-- LAUNCH_COMPLETE (R244, R258, R261): the colophon is written, and the signal is issued, or held with state 3, that of a cancelled
launch too; while the hold FIFO is full the launch, which is complete, waits to write its colophon. -/
def execLaunchComplete (s : State) : Outcome :=
  onDue s fun p s =>
    match p.ev with
    | .launchDone l =>
      let s := if (s.launch l).cancelled ∧ (s.launch l).state = 2 then s.haltLaunch l else s
      let held := s.ctl.tko || !s.ctl.fifo.isEmpty
      if held ∧ 256 ≤ s.ctl.fifo.length then
        let x := s.launch l
        ((s.setLaunch l { x with state := 3 }).freeLaunch l).post (s.clock + 1) true 0 0 (.launchDone l)
      else
        let s := s.writeColophon l
        let x := s.launch l
        let s := if held then
            let s := s.setLaunch l { x with state := 3 }
            { s with ctl := { s.ctl with fifo := s.ctl.fifo ++ [l] } }
          else s.signal l
        s.freeLaunch l
    | _ => s

/-- HELD_SIGNAL_RELEASE (R244): the oldest held signal is issued; after the last one the write of live retires. A takeover that has
been raised again holds them (R263). -/
def execHeldSignalRelease (s : State) : Outcome :=
  onDue s fun _ s =>
    if s.ctl.tko then { s with ctl := { s.ctl with live := none } }
    else
    match s.ctl.fifo with
    | [] => s
    | l :: rest =>
      let s := ({ s with ctl := { s.ctl with fifo := rest } }).signal l
      if rest.isEmpty then
        match s.ctl.live with
        | some n => ({ s with ctl := { s.ctl with live := none } }).setCC n { s.cc n with readyAt := s.clock + 1 }
        | none => s
      else s.post (s.clock + 1) true 0 0 .release

end Sys2Proof.Machine
end

