-- ==== Sys2Proof/Machine/Images.lean ====
section
/-! DEFINITION. Pre-emption (R267, R284), the context image (R285) and its resume (R286), the reset of a core (R268, R287), budgets
and stopped contexts (R269, R277). -/

namespace Sys2Proof.Machine

/-! ### The context image (R285) -/

/-- The vector result latches in image order, keyed `8 * unit + number`: lv0.z, lv1.z, va0.z, va1.z, vt.z, vs.z, vq.z, vq.y, nu.z,
mx.z. -/
def imageLatches : List Nat := [48, 56, 64, 80, 96, 104, 112, 113, 144, 160]

/-- The scalar ports and latches in image order: whether a latch, and the key (R28, R285). -/
def imageScalars : List (Bool × Nat) :=
  (List.range 22).flatMap fun f =>
    if fuOf f ≠ f then []
    else
      (((List.range 4).filter fun p => portClass f p == some true).map fun p => (false, 8 * f + p)) ++
        (((List.range 2).filter fun l => latchClass f l == some true).map fun l => (true, 8 * f + l))

/-- A scalar port or latch of the image. -/
def Regs.imageScalar (r : Regs) (q : Bool × Nat) : SVal := mget (if q.1 then r.slatch else r.sport) SVal.zero q.2
/-- A vector register in physical order. -/
def Regs.physV (r : Regs) (i : Nat) : VVal := mget r.v VVal.zero i
/-- A vector latch. -/
def Regs.imageLatch (r : Regs) (k : Nat) : VVal := mget r.vlatch VVal.zero k

/-- The number whose bit `i` is that of the list. -/
def bitsOf : List Bool → Nat
  | [] => 0
  | b :: t => (if b then 1 else 0) + 2 * bitsOf t

/-- A vector tag byte: [5:0] tag, [6] format mark. -/
def VVal.tagByte (v : VVal) : Nat := v.tag.toNat + if v.mark then 64 else 0

/-- The spill state (R84). -/
def Spill.word (x : Spill) : BitVec 256 :=
  x.obase ++ x.olimit ++ 0#32 ++ x.depth ++ 0#16 ++ x.cfol ++ x.cbase ++ 0#12 ++ x.prog

/-- The pending wait of the context word: code, index, and the two operands (R285); of a stopped context it is the wait that its trap has
interrupted. No code stands for the wait of a sysc, which R54 counts
among the waits of R50: the model saves none, and the context resumes at the next bundle with S1 as it stands (log 49). -/
def Wait.saved : Wait → Nat × Nat × BitVec 64 × BitVec 64
  | .eng e n => (1, e.toNat, n, 0)
  | .arr k => (2, k.toNat, 0, 0)
  | .xcnt n => (3, 0, n, 0)
  | .weq a v => (4, 0, a, v)
  | .wne a v => (5, 0, a, v)
  | .waitc c => (6, 0, c, 0)
  | _ => (0, 0, 0, 0)

/-- The wait that a context's image holds: the one it is in, or, when it is stopped, the one that its trap has interrupted. -/
def Ctx.saved (y : Ctx) : Nat × Nat × BitVec 64 × BitVec 64 :=
  match (if y.status = .stopped then y.held else y.status.wait) with
  | some w => w.saved
  | none => (0, 0, 0, 0)

/-- The context word (R285). -/
def Ctx.contextWord (y : Ctx) : Nat :=
  let w := y.saved
  y.pc.toNat + (if y.timed then 2 ^ 13 else 0) + (if y.record.valid then 2 ^ 14 else 0) + (if y.status = .stopped then 2 ^ 15 else 0) +
    w.1 * 2 ^ 16 + w.2.1 * 2 ^ 19 + y.taskId.toNat * 2 ^ 44

/-- The fields of a context's image: offset, bytes, value (R285). -/
def Ctx.imageFields (y : Ctx) (count : Nat) : List (Nat × Nat × Nat) :=
  let r := y.regs
  let vs := (List.range 64).map r.physV
  let ls := imageLatches.map r.imageLatch
  let ss := imageScalars.map r.imageScalar
  let sr := (List.range 64).map fun i => mget r.s SVal.zero i
  let col := fun (base size : Nat) (xs : List Nat) => xs.zipIdx.map fun q => (base + size * q.2, size, q.1)
  col 0x0000 512 (vs.map fun v => v.bits.toNat) ++ col 0x8000 512 (ls.map fun v => v.bits.toNat) ++
  col 0x9400 16 (vs.map fun v => v.poison.toNat) ++ col 0x9800 16 (ls.map fun v => v.poison.toNat) ++
  col 0x98A0 8 (sr.map fun v => v.val.toNat) ++ col 0x9AA0 16 ((List.range 8).map fun i => (r.rdM i).toNat) ++
  col 0x9B20 16 ((List.range 16).map fun i => (((r.masks ++ r.above)[i]?).getD 0).toNat) ++
  col 0x9C20 1 (vs.map VVal.tagByte) ++ col 0x9C60 1 (ls.map VVal.tagByte) ++ [(0x9C6A, 6, 0)] ++
  col 0x9C70 8 (ss.map fun v => v.val.toNat) ++ col 0x9DD0 1 (ss.map fun v => v.tag.toNat) ++ [(0x9DFC, 4, 0)] ++
  [(0x9E00, 8, bitsOf (sr.map SVal.poison)), (0x9E08, 8, bitsOf (ss.map SVal.poison)), (0x9E10, 8, bitsOf (vs.map VVal.void)),
   (0x9E18, 8, bitsOf (ls.map VVal.void))] ++
  ((List.range 4).flatMap fun k =>
    [(0x9E20 + 16 * k, 8, (r.loop k).words.1.toNat), (0x9E28 + 16 * k, 8, (r.loop k).words.2.toNat)]) ++
  [(0x9E60, 8, r.loopWord.toNat)] ++ col 0x9E68 2 ((List.range 16).map fun i => (mget r.recipe 0 i).toNat) ++
  col 0x9E88 8 ((List.range 8).map fun k => (mget y.arr Arrival.zero k).word.toNat) ++ [(0x9EC8, 8, y.arrivalWord.toNat)] ++
  col 0x9ED0 8 ((List.range 8).map fun k => (mget y.ecnt 0 k).toNat) ++ [(0x9F10, 8, y.engineWord.toNat)] ++
  [(0x9F18, 32, r.spill.word.toNat), (0x9F38, 8, (r.q ||| 1).toNat + r.masks.length * 2 ^ 16), (0x9F40, 8, r.flags.toNat),
   (0x9F48, 8, y.trapVec.toNat), (0x9F50, 8, r.budget.toNat), (0x9F58, 8, y.seed.toNat), (0x9F60, 8, r.xcnt.toNat),
   (0x9F68, 8, y.contextWord), (0x9F70, 8, y.launch.toNat), (0x9F78, 8, y.saved.2.2.1.toNat)] ++
  col 0x9F80 8 ((List.range 14).map fun i => (mget y.record.words 0 i).toNat) ++
  [(0x9FF0, 8, y.saved.2.2.2.toNat), (0x9FF8, 8, 2 ^ 63 + count % 2 ^ 48)]

/-- Keeps the entries of a map that differ from its default. -/
def sparse {α : Type} [DecidableEq α] (d : α) (xs : List α) : SMap α :=
  xs.zipIdx.filterMap fun q => if q.1 = d then none else some (q.2, q.1)

/-- An arrival counter of its word (R189). -/
def Arrival.ofWord (w : BitVec 64) : Arrival :=
  ⟨w.extractLsb' 48 16, w.extractLsb' 37 11, w.extractLsb' 26 11, w.extractLsb' 20 6, w.extractLsb' 13 7, w.extractLsb' 8 5,
   w.getLsbD 0⟩

/-- The spill state of its word (R84). -/
def Spill.ofWord (w : BitVec 256) : Spill :=
  ⟨w.extractLsb' 192 64, w.extractLsb' 160 32, w.extractLsb' 64 64, w.extractLsb' 40 8, w.extractLsb' 19 21, w.extractLsb' 0 7⟩

/-- The wait of a context word (R285). -/
def savedWait (code idx : Nat) (a b : BitVec 64) : Status :=
  match code with
  | 1 => .waiting (.eng (BitVec.ofNat 3 idx) a)
  | 2 => .waiting (.arr (BitVec.ofNat 3 idx))
  | 3 => .waiting (.xcnt a)
  | 4 => .waiting (.weq a b)
  | 5 => .waiting (.wne a b)
  | 6 => .waiting (.waitc a)
  | _ => .ready

/-- The vector value `i` of the image whose bits, poison, tags and void bits lie at these offsets. -/
def imageVec (rd : Nat → Nat → Nat) (bits pois tags voids i : Nat) : VVal :=
  let t := rd (tags + i) 1
  ⟨BitVec.ofNat 4096 (rd (bits + 512 * i) 512), BitVec.ofNat 6 (t % 64), BitVec.ofNat 128 (rd (pois + 16 * i) 16),
   (BitVec.ofNat 64 (rd voids 8)).getLsbD i, decide (t / 64 % 2 = 1)⟩

/-- The registers of an image (R286); `rd off n` is the number in `n` bytes at an offset. -/
def imageRegs (rd : Nat → Nat → Nat) : Regs :=
  let w := fun (off : Nat) => BitVec.ofNat 64 (rd off 8)
  let bit := fun (off i : Nat) => (w off).getLsbD i
  let sc := imageScalars.zipIdx.map fun q =>
    (q.1, SVal.mk (w (0x9C70 + 8 * q.2)) (BitVec.ofNat 6 (rd (0x9DD0 + q.2) 1)) (bit 0x9E08 q.2))
  let pick := fun (latch : Bool) => sc.foldl (fun (m : SMap SVal) q => if q.1.1 = latch then mput m q.1.2 q.2 else m) []
  let lc := w 0x9E60
  let qd := rd 0x9F38 8
  let mask := fun (i : Nat) => BitVec.ofNat 128 (rd (0x9B20 + 16 * i) 16)
  let d := min 16 (qd / 2 ^ 16 % 32)
  { s := sparse SVal.zero ((List.range 64).map fun i => ⟨w (0x98A0 + 8 * i), 0, bit 0x9E00 i⟩)
    v := sparse VVal.zero ((List.range 64).map fun i => imageVec rd 0x0000 0x9400 0x9C20 0x9E10 i)
    q := BitVec.ofNat 16 (qd % 2 ^ 16)
    m := sparse 0 ((List.range 8).map fun i => BitVec.ofNat 128 (rd (0x9AA0 + 16 * i) 16))
    sport := pick false, vport := [], slatch := pick true
    vlatch := imageLatches.zipIdx.foldl (fun (m : SMap VVal) q => mput m q.1 (imageVec rd 0x8000 0x9800 0x9C60 0x9E18 q.2)) []
    loops := (List.range 4).map fun k => (k, Loop.ofWords (w (0x9E20 + 16 * k)) (w (0x9E28 + 16 * k)))
    floor := lc.extractLsb' 8 3, depth := lc.extractLsb' 5 3, base := lc.extractLsb' 0 5
    masks := (List.range d).map mask, above := (List.range (16 - d)).map fun i => mask (d + i)
    recipe := sparse 0 ((List.range 16).map fun i => BitVec.ofNat 12 (rd (0x9E68 + 2 * i) 2))
    flags := BitVec.ofNat 5 (rd 0x9F40 8), budget := w 0x9F50
    spill := Spill.ofWord (BitVec.ofNat 256 (rd 0x9F18 32)), xcnt := w 0x9F60 }

/-- A context of an image, as a free context at clock `clock` (R286): at its pending wait, if one was saved; at its trapped bundle, which
word 0 of its record names (R271), if it was stopped; else at its resume bundle. -/
def imageCtx (rd : Nat → Nat → Nat) (old : Ctx) (prio : BitVec 3) (sup : BitVec 2) (infl : Nat) (clock : Nat)
    (ptrap : Option (BitVec 6 × BitVec 64 × BitVec 64)) : Ctx :=
  let w := fun (off : Nat) => BitVec.ofNat 64 (rd off 8)
  let cw := w 0x9F68
  let es := w 0x9F10
  let aw := w 0x9EC8
  let l := w 0x9F70
  { Ctx.zero with
    regs := imageRegs rd
    pc := if cw.getLsbD 15 then (w 0x9F80).extractLsb' 0 13 else cw.extractLsb' 0 13
    ptrap := ptrap
    seed := w 0x9F58
    arr := sparse Arrival.zero ((List.range 8).map fun k => Arrival.ofWord (w (0x9E88 + 8 * k)))
    msgdrop := aw.extractLsb' 16 16, bcdrop := aw.extractLsb' 0 16
    ecnt := sparse 0 ((List.range 8).map fun k => w (0x9ED0 + 8 * k))
    errs := es.extractLsb' 32 32, errCode := es.extractLsb' 24 8, errEng := es.extractLsb' 21 3, infl := BitVec.ofNat 4 infl
    trapVec := BitVec.ofNat 14 (rd 0x9F48 8)
    record := ⟨cw.getLsbD 14, (List.range 14).map fun i => (i, w (0x9F80 + 8 * i))⟩
    pbuf := old.pbuf, closed := old.closed, pbufLaunch := if old.occupied then old.pbufLaunch else l
    task := some { launch := l, id := cw.extractLsb' 44 20, timed := false, prio := prio, supervisor := sup }
    status := savedWait (cw.extractLsb' 16 3).toNat (cw.extractLsb' 19 3).toNat (w 0x9F78) (w 0x9FF0)
    prog := BitVec.ofNat 8 ((BitVec.ofNat 256 (rd 0x9F18 32)).extractLsb' 0 7).toNat + (if (w 0x9FE0).getLsbD 7 then 128 else 0)
    readyAt := clock + 1 }

/-! ### zpreempt (R267, R284, R286) -/

/-- Whether an address may be a save area (R267): 4 KiB-aligned, all 40 KiB in the gallery. -/
def saveArea (a : Nat) : Bool := a % 4096 == 0 && lvlOf a == some 2 && lvlOf (a + 40959) == some 2

/-- The engine commands of a task that have not ended count among those in flight of the context that it resumes on (R227, R229). -/
def State.moveCommands (s : State) (l : BitVec 64) (t : BitVec 20) (c k : Nat) : State :=
  let f := fun (x : Cmd) => x.launch == l && x.task == t
  let s := (s.commands.filter f).foldl (fun s x =>
    let s := s.oneLess x
    let y := s.ctx c k
    s.setCtx c k { y with infl := BitVec.ofNat 4 (min 15 (y.infl.toNat + 1)) }) s
  s.mapCommands fun x => if f x then { x with owner := (c, k) } else x

/-- zpreempt (R267): the word rs1 names the context and the form; rs2 is the save area. A resume takes a context that holds no task and
waits for none: entries of the task's own launch may stand in its phase buffer (R182). -/
def State.zpreempt (s : State) (a b : BitVec 64) : State × BitVec 64 :=
  let c := (a.extractLsb' 0 9).toNat
  let k := (a.extractLsb' 9 2).toNat
  let y := s.ctx c k
  if a.extractLsb' 12 52 ≠ 0 then (s, BitVec.allOnes 64)
  else if !a.getLsbD 11 then
    if y.task.isNone then (s, 1)
    else if !saveArea b.toNat then (s, 2)
    else
      let (d, s) := s.draw
      (s.post (s.clock + d % 129) true c k (.preempt b.toNat), 0)
  else
    let rd := fun off n => wordAt (s.levelByte 2 0) (b.toNat + off) n
    if !saveArea b.toNat || decide (rd 0x9FF8 8 < 2 ^ 63) then (s, 2)
    else if !y.freeFor (BitVec.ofNat 64 (rd 0x9F70 8)) || s.starting c k then (s, 1)
    else
      let l := BitVec.ofNat 64 (rd 0x9F70 8)
      let t := BitVec.ofNat 20 (rd 0x9F68 8 / 2 ^ 44)
      let x := s.launch l
      let s := ({ s with agenda := s.agenda.map (orphan c k) }).moveCommands l t c k
      let y' := imageCtx rd y (s.queue x.queue).prio x.supervisor (s.ctx c k).infl.toNat s.clock
        ((x.ptraps.find? fun q => q.1 == t).map Prod.snd)
      let s := (s.setCtx c k y').setLaunch l { x with ptraps := x.ptraps.filter fun q => q.1 != t }
      ({ s with ctl := { s.ctl with saved := s.ctl.saved.filter fun q => !(q.1 == l && q.2.1 == t) } }, 0)

/-- PREEMPT_HALT (R284): the context issues no more; an open region is abandoned, and the image will be saved. -/
def execPreemptHalt (s : State) : Outcome :=
  onDue s fun p s =>
    match p.ev with
    | .preempt a =>
      let y := s.ctx p.core p.ctx
      match y.task with
      | none => s
      | some t =>
        let s := s.dropRerun p.core p.ctx
        let y := (s.ctx p.core p.ctx).abandon
        let s := s.setCtx p.core p.ctx { y with lag := 0, ldl := none, engWalk := none }
        let s := s.setLaunch t.launch { s.launch t.launch with preempted := true }
        s.post s.clock true p.core p.ctx (.imageSave a)
    | _ => s

/-- The image is written and the context holds no task; messages in its mailbox count as dropped (R284, R286). A trap that the task has
yet to take waits with its launch (R179). -/
def saveImage (s : State) (c k a : Nat) : State :=
  let y := s.ctx c k
  match y.task with
  | none => s
  | some t =>
    let y := { y with mailbox := [], msgdrop := y.mailbox.foldl (fun n _ => satInc n) y.msgdrop }
    let cells := (y.imageFields s.now).flatMap fun f => cellsOf (a + f.1) f.2.1 f.2.2
    let s := s.putCells 2 0 cells ((List.range 2560).map fun i => (a / 16 + i, false))
    let s := s.setCtx c k { y with task := none, status := .noTask, held := none, ptrap := none }
    let x := s.launch t.launch
    let s := if x.state = 0 then s else s.setLaunch t.launch { x with ptraps := x.ptraps ++ y.ptrap.toList.map fun p => (t.id, p) }
    { s with ctl := { s.ctl with saved := s.ctl.saved ++ [(t.launch, t.id, a)] } }

/-- IMAGE_SAVE (R284): once everything of the context has landed, the image is written within 200 cycles. The save engine's last
step carries the address plus 1. -/
def execImageSave (s : State) : Outcome :=
  onDue s fun p s =>
    match p.ev with
    | .imageSave a =>
      let ours := s.agenda.any fun q => q.core == p.core && q.ctx == p.ctx && (q.ev.ofBundle || q.ev.sent)
      if a % 2 = 1 then saveImage s p.core p.ctx (a - 1)
      else if ours then s.post (s.clock + 1) true p.core p.ctx (.imageSave a)
      else
        let (d, s) := s.draw
        s.post (s.clock + d % 201) true p.core p.ctx (.imageSave (a + 1))
    | _ => s

/-! ### zreset (R268, R287) -/

/-- zreset (R268). -/
def State.zreset (s : State) (a : BitVec 64) : State × BitVec 64 :=
  let c := (a.extractLsb' 0 9).toNat
  if a.extractLsb' 9 55 ≠ 0 then (s, BitVec.allOnes 64)
  else if !s.serving c then (s, 1)
  else
    let (d, s) := s.draw
    (s.post (s.clock + d % 65) true c 0 .coreReset, 0)

/-- The commands of a core that have entered no shadow set are discarded; the others make no release (R229), and count for no context of
the core. -/
def State.dropCommands (s : State) (c : Nat) : State :=
  let ended := (s.agenda.filterMap fun p => match p.ev with | .engAcquire x => some x | _ => none) ++ s.engines.flatMap fun e => e.2.queue
  let s := (ended.filter fun x => x.core == c).foldl State.oneLess s
  let s := { s with
    agenda := s.agenda.filter fun p => match p.ev with | .engAcquire x => x.core != c | _ => true
    engines := s.engines.map fun (e : Nat × Engine) => (e.1, { e.2 with queue := e.2.queue.filter fun x => x.core != c }) }
  (s.dropReleases fun x => x.core == c).mapCommands fun x => if x.owner.1 = c then { x with owner := (512, 0) } else x

/-- Loads, landings and beats of a core in flight land nowhere; its stores and sends complete (R287). -/
def Pending.dies (p : Pending) (c : Nat) : Bool :=
  p.core == c &&
    match p.ev with
    | .write .. | .cas .. => false
    | .walk _ => true
    | ev => ev.ofBundle

/-- The state of a core is cleared, its tasks end as faulted, its claims are released (R287). -/
def State.clearCore (s : State) (c : Nat) : State :=
  let s := (List.range 4).foldl (fun s k =>
    let s := s.dropRerun c k
    let s := { s with agenda := (s.agenda.filter fun (p : Pending) => !(p.dies c)).map (orphan c k) }
    let s := s.setCtx c k { s.ctx c k with pbuf := [], closed := [] }
    endTask s c k false) s
  let s := s.setCore c { s.core c with
    arr := Arr.zero, ctxs := [], running := none, prim := none, primUnits := [], full := false, bank := false
    rrPrimary := 3, rrSecond := 3 }
  { s with claims := s.claims.filter fun q => q.2.core != c }

/-- The exchanges of a core complete within 1,024 clocks, whatever the counts do (R81, R287). -/
def State.drainXu (s : State) (c : Nat) : State :=
  { s with agenda := s.agenda.map fun p =>
      match p.ev with
      | .xch .. | .vac _ | .setm .. =>
        if p.core = c then { p with onClock := true, due := s.clock + min 1024 (p.due - s.time p.onClock)
                                    stated := s.clock + min 1024 (p.due - s.time p.onClock) }
        else p
      | _ => p }

/-- CORE_RESET (R287): the core stops, its exchanges drain within 1,024 clocks, and then it is cleared and tested. -/
def execCoreReset (s : State) : Outcome :=
  onDue s fun p s =>
    let c := p.core
    let s := (s.setCore c { s.core c with oos := true }).dropCommands c
    if s.xuCount c ≠ 0 then (s.drainXu c).post (s.clock + 1) true c 0 .coreReset
    else
      let s := s.clearCore c
      let (d, s) := s.draw
      s.post (s.clock + d % 4097) true c 0 .selfTest

/-- SELF_TEST (R287, R288): the core is in service after it, or retired. -/
def execSelfTest (s : State) : Outcome :=
  onDue s fun p s =>
    let x := s.core p.core
    if x.testFails then s.setCore p.core { x with retired := true, testFails := false }
    else if x.retired then s
    else s.setCore p.core { x with oos := false }

/-! ### zbudget (R269, R277) -/

/-- A timed context whose budget was exhausted has left the schedule: refilled, it is a free context (R64). -/
def Ctx.offSchedule (y : Ctx) : Ctx :=
  if (mget y.record.words 0 0).extractLsb' 26 6 = 0x13 then { y with lag := 0, task := y.task.map fun t => { t with timed := false } } else y

/-- A stopped context resumes at its record's resume bundle, with the restoration of R275 (R277); a wait that the trap interrupted goes
on (R64). -/
def Ctx.resumed (y : Ctx) (clock : Nat) : Ctx :=
  { (trapRestore y).offSchedule with pc := (mget y.record.words 0 0).extractLsb' 13 13, readyAt := clock + 1 }

/-- zbudget (R269, R277). -/
def State.zbudget (s : State) (a b : BitVec 64) : State × BitVec 64 :=
  let c := (a.extractLsb' 0 9).toNat
  let k := (a.extractLsb' 9 2).toNat
  let y := s.ctx c k
  if a.extractLsb' 11 53 ≠ 0 then (s, BitVec.allOnes 64)
  else if y.task.isNone then (s, BitVec.allOnes 64)
  else
    let old := y.regs.budget
    let y' := if b = BitVec.allOnes 64 then y else { y with regs := { y.regs with budget := b } }
    if y.status = .stopped then
      if b = 0 then (endTask s c k false, old) else (s.setCtx c k (y'.resumed s.clock), old)
    else (s.setCtx c k y', old)

end Sys2Proof.Machine
end

