-- ==== Sys2Proof/Machine/ControlCore.lean ====
section
/-! DEFINITION. The control cores (R241, R263, R264): RV64IMAC with Zicsr in machine and user mode, whose base rules are those of
the RISC-V manuals (log 7); their exceptions and interrupts; the CSRs of R242, R255, R262, R276, R289 and R292. -/

namespace Sys2Proof.Machine

/-! ### Registers, exceptions and interrupts -/

/-- Integer register `n`; x0 reads zero. -/
def CC.rx (x : CC) (n : Nat) : BitVec 64 := if n = 0 then 0 else mget x.x 0 n
/-- Writes an integer register; a write to x0 is discarded. -/
def CC.wx (x : CC) (n : Nat) (v : BitVec 64) : CC := if n = 0 then x else { x with x := mput x.x n v }
/-- A CSR that the control core holds by itself. -/
def CC.reg (x : CC) (n : Nat) : BitVec 64 := mget x.csr 0 n
/-- Writes such a CSR. -/
def CC.setReg (x : CC) (n : Nat) (v : BitVec 64) : CC := { x with csr := mput x.csr n v }

/-- TAKING AN EXCEPTION OR INTERRUPT: mepc, mcause and mtval are written, MPIE takes MIE and MPP the mode, interrupts are off, and
the pc goes to `vector` (R263; the RISC-V privileged architecture, log 7). -/
def CC.enter (x : CC) (cause tval vector : BitVec 64) : CC :=
  let st := x.reg 0x300
  let st' := (st &&& ~~~0x1888#64) ||| (if st.getLsbD 3 then 0x80 else 0) ||| (if x.machine then 0x1800 else 0)
  { (((x.setReg 0x300 st').setReg 0x341 x.pc).setReg 0x342 cause).setReg 0x343 tval with pc := vector, machine := true }

/-- The base of mtvec. -/
def CC.vector (x : CC) : BitVec 64 := x.reg 0x305 &&& ~~~3#64

/-- THE RETURN FROM AN EXCEPTION, mret: the pc from mepc, the mode from MPP, MIE from MPIE. -/
def CC.mret (x : CC) : CC :=
  let st := x.reg 0x300
  let st' := (st &&& ~~~0x1888#64) ||| (if st.getLsbD 7 then 0x8 else 0) ||| 0x80
  { x.setReg 0x300 st' with pc := x.reg 0x341, machine := st.extractLsb' 11 2 == 3 }

/-- mip: bit 11 while the trap queue is not empty (R276), bit 16 after a takeover (R263). -/
def CC.mip (x : CC) : BitVec 64 := (x.reg 0x344 &&& 0x10000) ||| (if x.trapq.isEmpty then 0 else 0x800)

/-- The takeover vector as a pc: byte address of the instruction (log 7). -/
def vectorPc (i : Option Nat) : BitVec 64 := BitVec.ofNat 64 (4 * i.getD 0)

/-- The instruction word at a control core's pc: 32 bits, or 16 for a compressed one. -/
def CC.word (x : CC) : BitVec 32 :=
  let lo := Memory.readN x.imem x.pc.toNat 2
  if lo % 4 = 3 then BitVec.ofNat 32 (Memory.readN x.imem x.pc.toNat 4) else BitVec.ofNat 32 lo

/-- Whether the fetch reads the word of instruction memory at `a`. -/
def CC.reads (x : CC) (a : Nat) : Bool :=
  let n := if x.word.extractLsb' 0 2 = 3#2 then 4 else 2
  decide (a < x.pc.toNat + n ∧ x.pc.toNat < a + 4)

/-- Whether the fetch meets an uncorrectable error (R263). -/
def CC.fetchBad (x : CC) : Bool := x.imemBad.any x.reads

/-- The control core that is about to fetch takes a pending interrupt first: the takeover (R263), then the machine external
interrupt (R276). -/
def CC.interrupts (x : CC) : CC :=
  let mie := x.reg 0x304
  let on := (x.reg 0x300).getLsbD 3
  if x.mip.getLsbD 16 && mie.getLsbD 16 && on then
    (x.setReg 0x344 (x.reg 0x344 &&& ~~~0x10000#64)).enter (2 ^ 63 + 16) 0 (vectorPc x.takePc)
  else if x.mip.getLsbD 11 && mie.getLsbD 11 && (on || !x.machine) then
    x.enter (2 ^ 63 + 11) 0 (if x.reg 0x305 &&& 3 = 1 then x.vector + 44 else x.vector)
  else x

/-- What an instruction of a control core comes to: the state and the control core after it, or an exception's cause and value. -/
abbrev CCResult := Except (Nat × BitVec 64) (State × CC)

/-- The control core's next instruction comes a free time later (R321). -/
def State.ccDone (s : State) (n : Nat) (x : CC) : State :=
  { s.setCC n { x with readyAt := s.clock + 1 + Config.freeNat s.free, done := x.done + 1 } with free := s.free + 1, turn := .idle }

/-- One instruction of the control core at hand. An exception writes mtval, or leaves 0 there, as the part does (log 7). -/
def ccRun (f : State → CC → CCResult) (s : State) : Outcome :=
  let n := s.ccActor
  let x := s.cc n
  match f s x with
  | .ok (s', x') => .next (s'.ccDone n (x'.setReg 0xB02 (x'.reg 0xB02 + 1)))
  | .error (cause, tval) =>
    let (d, s) := s.draw
    .next (s.ccDone n (x.enter (BitVec.ofNat 64 cause) (if d % 2 = 0 then tval else 0) x.vector))

/-- An illegal-instruction exception. -/
def ccIllegal (w : BitVec 32) : CCResult := .error (2, w.zeroExtend 64)

/-! ### CSRs -/

/-- A word of the spare map as CSRs read it (R289). -/
def State.spareWord (s : State) (i : Nat) : BitVec 64 :=
  let w := s.spareOf i
  let out := bitsOf ((List.range 16).map fun j => !s.serving (16 * i + j))
  let failed := w.sfail || (w.used && (s.core (16 * i + w.sub.toNat)).retired)
  0#32 ++ BitVec.ofBool w.used ++ BitVec.ofBool failed ++ 0#10 ++ w.sub ++ BitVec.ofNat 16 out

/-- zctko (R242). -/
def Complex.tkoWord (x : Complex) : BitVec 64 :=
  BitVec.ofNat 16 x.fifo.length ++ 0#40 ++ x.failed ++ BitVec.ofBool x.tko ++ 0#1 ++ x.oos

/-- The entry that a read of ztrapq returns (R276). -/
def CC.trapqWord (x : CC) : BitVec 64 :=
  match x.trapq with
  | [] => 0
  | (c, k) :: _ => 1#1 ++ 0#52 ++ BitVec.ofNat 2 k ++ BitVec.ofNat 9 c

/-- misa: RV64 with A, C, I, M and U. -/
def misaWord : BitVec 64 := 0x8000000000101105#64

/-- The value of a CSR of control core `n`; none where no CSR has the number. -/
def State.csrRead (s : State) (n : Nat) (x : CC) (a : Nat) : Option (BitVec 64) :=
  match a with
  | 0x301 => some misaWord
  | 0x344 => some x.mip
  | 0x300 | 0x304 | 0x305 | 0x340 | 0x341 | 0x342 | 0x343 | 0xB02 => some (x.reg a)
  | 0xB00 => some (x.reg 0xB00 + BitVec.ofNat 64 s.clock)
  | 0xF11 | 0xF12 | 0xF13 | 0xF15 => some 0
  | 0xF14 => some (BitVec.ofNat 64 n)
  | 0xFC0 => some s.ctl.zjtail
  | 0xFC1 => some s.zroom
  | 0xFC2 => some (s.ctl.zpmeas.zeroExtend 64)
  | 0xFC3 => some x.trapqWord
  | 0x7C0 => some s.ctl.tkoWord
  | 0x7C1 => some s.ctl.zjhead
  | 0x7C2 => some (s.ctl.zplim.zeroExtend 64)
  | 0x7C3 => some 0
  | _ => if 0xFE0 ≤ a ∧ a ≤ 0xFFF then some (s.spareWord (a - 0xFE0)) else none

/-- The control core after a write to a CSR that it holds by itself; the fields that do not exist read zero. -/
def CC.csrWrite (x : CC) (clock : Nat) (a : Nat) (v : BitVec 64) : CC :=
  match a with
  | 0x300 =>
    let mpp : BitVec 64 := if v.extractLsb' 11 2 = 3 then 0x1800 else if v.extractLsb' 11 2 = 0 then 0 else x.reg 0x300 &&& 0x1800
    x.setReg 0x300 ((v &&& 0x88) ||| mpp)
  | 0x304 => x.setReg 0x304 (v &&& 0x10888)
  | 0x305 => x.setReg 0x305 (v &&& ~~~2#64)
  | 0x341 => x.setReg 0x341 (v &&& ~~~1#64)
  | 0x344 => x.setReg 0x344 (v &&& 0x10000)
  | 0xB00 => x.setReg 0xB00 (v - BitVec.ofNat 64 clock)
  | 0xB02 => x.setReg 0xB02 (v - 1)
  | 0x340 | 0x342 | 0x343 => x.setReg a v
  | _ => x

/-- The value that a CSR instruction writes, of the CSR's old value. -/
def csrOperand (x : CC) (w : BitVec 32) (old : BitVec 64) : BitVec 64 :=
  let r := (w.extractLsb' 15 5).toNat
  let f := (w.extractLsb' 12 3).toNat
  let src := if 4 ≤ f then BitVec.ofNat 64 r else x.rx r
  match f % 4 with
  | 1 => src
  | 2 => old ||| src
  | _ => old &&& ~~~src

/-- A CSR instruction (Zicsr): the old value goes to rd; `write` acts on the value written. A CSR that no one has, one below
machine mode, and a write to a read-only one are illegal. -/
def csrRun (w : BitVec 32) (write : State → CC → BitVec 64 → State × CC) (s : State) (x : CC) : CCResult :=
  let a := (w.extractLsb' 20 12).toNat
  if !x.machine || (csrWrites w && decide (0xC00 ≤ a)) then ccIllegal w
  else
    match s.csrRead s.ccActor x a with
    | none => ccIllegal w
    | some old =>
      let (s', x') := if csrWrites w then write s x (csrOperand x w old) else (s, x)
      .ok (s', { x'.wx (w.extractLsb' 7 5).toNat old with pc := x.pc + 4 })

/-! ### RV64IMAC -/

/-- The immediates of a 32-bit instruction. -/
def immI (w : BitVec 32) : BitVec 64 := (w.extractLsb' 20 12).signExtend 64
def immS (w : BitVec 32) : BitVec 64 := (w.extractLsb' 25 7 ++ w.extractLsb' 7 5).signExtend 64
def immB (w : BitVec 32) : BitVec 64 :=
  (w.extractLsb' 31 1 ++ w.extractLsb' 7 1 ++ w.extractLsb' 25 6 ++ w.extractLsb' 8 4 ++ 0#1).signExtend 64
def immU (w : BitVec 32) : BitVec 64 := (w.extractLsb' 12 20 ++ 0#12).signExtend 64
def immJ (w : BitVec 32) : BitVec 64 :=
  (w.extractLsb' 31 1 ++ w.extractLsb' 12 8 ++ w.extractLsb' 20 1 ++ w.extractLsb' 21 10 ++ 0#1).signExtend 64

/-- Sign-extends the low 32 bits. -/
def sx32 (v : BitVec 64) : BitVec 64 := (v.extractLsb' 0 32).signExtend 64

/-- Signed and unsigned division of `w` bits: by zero gives all ones, the most negative number by -1 itself. -/
def rvDiv {w : Nat} (a b : BitVec w) : BitVec w := if b = 0 then BitVec.allOnes w else BitVec.ofInt w (a.toInt.tdiv b.toInt)
def rvRem {w : Nat} (a b : BitVec w) : BitVec w := if b = 0 then a else BitVec.ofInt w (a.toInt.tmod b.toInt)
def rvDivu {w : Nat} (a b : BitVec w) : BitVec w := if b = 0 then BitVec.allOnes w else a / b
def rvRemu {w : Nat} (a b : BitVec w) : BitVec w := if b = 0 then a else a % b

/-- The result of an OP instruction by funct7 and funct3. -/
def rvOp (f7 f3 : Nat) (a b : BitVec 64) : Option (BitVec 64) :=
  match f7, f3 with
  | 0x00, 0 => some (a + b)
  | 0x20, 0 => some (a - b)
  | 0x00, 1 => some (a <<< (b.toNat % 64))
  | 0x00, 2 => some (if a.slt b then 1 else 0)
  | 0x00, 3 => some (if a.ult b then 1 else 0)
  | 0x00, 4 => some (a ^^^ b)
  | 0x00, 5 => some (a >>> (b.toNat % 64))
  | 0x20, 5 => some (a.sshiftRight (b.toNat % 64))
  | 0x00, 6 => some (a ||| b)
  | 0x00, 7 => some (a &&& b)
  | 0x01, 0 => some (a * b)
  | 0x01, 1 => some (BitVec.ofInt 64 (a.toInt * b.toInt / 2 ^ 64))
  | 0x01, 2 => some (BitVec.ofInt 64 (a.toInt * (b.toNat : Int) / 2 ^ 64))
  | 0x01, 3 => some (BitVec.ofNat 64 (a.toNat * b.toNat / 2 ^ 64))
  | 0x01, 4 => some (rvDiv a b)
  | 0x01, 5 => some (rvDivu a b)
  | 0x01, 6 => some (rvRem a b)
  | 0x01, 7 => some (rvRemu a b)
  | _, _ => none

/-- The result of an OP-32 instruction, on the low 32 bits, sign-extended. -/
def rvOpW (f7 f3 : Nat) (x y : BitVec 64) : Option (BitVec 64) :=
  let a := x.extractLsb' 0 32
  let b := y.extractLsb' 0 32
  let r : Option (BitVec 32) := match f7, f3 with
  | 0x00, 0 => some (a + b)
  | 0x20, 0 => some (a - b)
  | 0x00, 1 => some (a <<< (b.toNat % 32))
  | 0x00, 5 => some (a >>> (b.toNat % 32))
  | 0x20, 5 => some (a.sshiftRight (b.toNat % 32))
  | 0x01, 0 => some (a * b)
  | 0x01, 4 => some (rvDiv a b)
  | 0x01, 5 => some (rvDivu a b)
  | 0x01, 6 => some (rvRem a b)
  | 0x01, 7 => some (rvRemu a b)
  | _, _ => none
  r.map fun r => r.signExtend 64

/-- The result of an OP-IMM instruction; the shifts take six bits of amount. -/
def rvImm (w : BitVec 32) (a : BitVec 64) : Option (BitVec 64) :=
  let f3 := (w.extractLsb' 12 3).toNat
  let f6 := (w.extractLsb' 26 6).toNat
  match f3 with
  | 1 => if f6 = 0 then rvOp 0 1 a ((w.extractLsb' 20 6).zeroExtend 64) else none
  | 5 => if f6 = 0 then rvOp 0 5 a ((w.extractLsb' 20 6).zeroExtend 64)
    else if f6 = 0x10 then rvOp 0x20 5 a ((w.extractLsb' 20 6).zeroExtend 64) else none
  | _ => rvOp 0 f3 a (immI w)

/-- The result of an OP-IMM-32 instruction. -/
def rvImmW (w : BitVec 32) (a : BitVec 64) : Option (BitVec 64) :=
  let f3 := (w.extractLsb' 12 3).toNat
  let f7 := (w.extractLsb' 25 7).toNat
  let sh := (w.extractLsb' 20 5).zeroExtend 64
  match f3 with
  | 0 => rvOpW 0 0 a (immI w)
  | 1 => if f7 = 0 then rvOpW 0 1 a sh else none
  | 5 => if f7 = 0 ∨ f7 = 0x20 then rvOpW f7 5 a sh else none
  | _ => none

/-- Whether a branch is taken. -/
def rvBranch (f3 : Nat) (a b : BitVec 64) : Option Bool :=
  match f3 with
  | 0 => some (a == b)
  | 1 => some (a != b)
  | 4 => some (a.slt b)
  | 5 => some (!a.slt b)
  | 6 => some (a.ult b)
  | 7 => some (!a.ult b)
  | _ => none

/-- What an atomic writes, of the old value and the operand. -/
def rvAmo (f5 : Nat) (a b : BitVec 64) : Option (BitVec 64) :=
  match f5 with
  | 0x01 => some b
  | 0x00 => some (a + b)
  | 0x04 => some (a ^^^ b)
  | 0x0C => some (a &&& b)
  | 0x08 => some (a ||| b)
  | 0x10 => some (if a.slt b then a else b)
  | 0x14 => some (if a.slt b then b else a)
  | 0x18 => some (if a.ult b then a else b)
  | 0x1C => some (if a.ult b then b else a)
  | _ => none

/-- A store of `n` bytes by a control core: the other control cores' reservations of the word end. -/
def State.ccStore (s : State) (me : Nat) (a n : Nat) (v : BitVec 64) : State :=
  let s := s.ccPut (cellsOf a n v.toNat)
  { s with ctl := { s.ctl with ccs := s.ctl.ccs.map fun q =>
      (q.1, if q.1 ≠ me ∧ q.2.reserved = some (a / 8) then { q.2 with reserved := none } else q.2) } }

/-- A load of `n` bytes at `a` (R241): misaligned, or where no memory is, it raises its exception and performs no access. -/
def State.ccLoad (s : State) (a : BitVec 64) (n : Nat) : Except (Nat × BitVec 64) Nat :=
  if a.toNat % n ≠ 0 then .error (4, a)
  else if (ccLevel a.toNat).isNone then .error (5, a)
  else .ok (s.ccRead a.toNat n)

/-- The checks of a store, SC or AMO of `n` bytes at `a` (R241). -/
def ccStoreOk (a : BitVec 64) (n : Nat) : Except (Nat × BitVec 64) Unit :=
  if a.toNat % n ≠ 0 then .error (6, a)
  else if (ccLevel a.toNat).isNone then .error (7, a)
  else .ok ()

/-- The value of a load by funct3. -/
def rvLoaded (f3 v : Nat) : Option (BitVec 64) :=
  match f3 with
  | 0 => some ((BitVec.ofNat 8 v).signExtend 64)
  | 1 => some ((BitVec.ofNat 16 v).signExtend 64)
  | 2 => some ((BitVec.ofNat 32 v).signExtend 64)
  | 3 | 4 | 5 | 6 => some (BitVec.ofNat 64 v)
  | _ => none

/-- The atomics: lr, sc and the AMOs, of 4 or 8 bytes. -/
def rvAtomic (w : BitVec 32) (s : State) (x : CC) : CCResult := do
  let f5 := (w.extractLsb' 27 5).toNat
  let n := if (w.extractLsb' 12 3).toNat = 2 then 4 else 8
  let a := x.rx (w.extractLsb' 15 5).toNat
  let b := x.rx (w.extractLsb' 20 5).toNat
  let rd := (w.extractLsb' 7 5).toNat
  let sx := fun (v : Nat) => if n = 4 then (BitVec.ofNat 32 v).signExtend 64 else BitVec.ofNat 64 v
  if (w.extractLsb' 12 3).toNat ≠ 2 ∧ (w.extractLsb' 12 3).toNat ≠ 3 then ccIllegal w
  else if f5 = 2 then
    if w.extractLsb' 20 5 ≠ 0 then ccIllegal w
    else
      let v ← s.ccLoad a n
      return (s.ccTouch a.toNat, { x.wx rd (sx v) with reserved := some (a.toNat / 8) })
  else if f5 = 3 then
    ccStoreOk a n
    if x.reserved = some (a.toNat / 8) then
      return (s.ccStore s.ccActor a.toNat n b, { x.wx rd 0 with reserved := none })
    else return (s, { x.wx rd 1 with reserved := none })
  else
    match rvAmo f5 (sx (s.ccRead a.toNat n)) (if n = 4 then sx32 b else b) with
    | none => ccIllegal w
    | some v =>
      ccStoreOk a n
      return ((s.ccTouch a.toNat).ccStore s.ccActor a.toNat n v, x.wx rd (sx (s.ccRead a.toNat n)))

/-- One 32-bit instruction that lies `len` bytes before the next one. -/
def rv32 (w : BitVec 32) (len : BitVec 64) (s : State) (x : CC) : CCResult :=
  let rd := (w.extractLsb' 7 5).toNat
  let f3 := (w.extractLsb' 12 3).toNat
  let f7 := (w.extractLsb' 25 7).toNat
  let a := x.rx (w.extractLsb' 15 5).toNat
  let b := x.rx (w.extractLsb' 20 5).toNat
  let next := x.pc + len
  let put := fun (v : Option (BitVec 64)) =>
    match v with
    | some v => Except.ok (s, { x.wx rd v with pc := next })
    | none => ccIllegal w
  match (w.extractLsb' 0 7).toNat with
  | 0x37 => put (some (immU w))
  | 0x17 => put (some (x.pc + immU w))
  | 0x6F => .ok (s, { x.wx rd next with pc := x.pc + immJ w })
  | 0x67 => if f3 = 0 then .ok (s, { x.wx rd next with pc := (a + immI w) &&& ~~~1#64 }) else ccIllegal w
  | 0x63 =>
    match rvBranch f3 a b with
    | some t => .ok (s, { x with pc := if t then x.pc + immB w else next })
    | none => ccIllegal w
  | 0x03 =>
    if f3 = 7 then ccIllegal w
    else do
      let v ← s.ccLoad (a + immI w) (2 ^ (f3 % 4))
      let (s', x') ← put (rvLoaded f3 v)
      return (s'.ccTouch (a + immI w).toNat, x')
  | 0x23 =>
    if 4 ≤ f3 then ccIllegal w
    else do
      ccStoreOk (a + immS w) (2 ^ f3)
      return (s.ccStore s.ccActor (a + immS w).toNat (2 ^ f3) b, { x with pc := next })
  | 0x13 => put (rvImm w a)
  | 0x1B => put (rvImmW w a)
  | 0x33 => put (rvOp f7 f3 a b)
  | 0x3B => put (rvOpW f7 f3 a b)
  | 0x2F => do
    let (s', x') ← rvAtomic w s x
    return (s', { x' with pc := next })
  | 0x0F => if f3 = 0 then .ok (s, { x with pc := next }) else ccIllegal w
  | 0x73 =>
    if w = 0x00000073#32 then .error (if x.machine then 11 else 8, 0)
    else if w = 0x00100073#32 then .error (3, x.pc)
    else if w = 0x30200073#32 then (if x.machine then .ok (s, x.mret) else ccIllegal w)
    else if w = 0x10500073#32 then .ok (s, { x with pc := next })
    else if f3 = 0 ∨ f3 = 4 then ccIllegal w
    else csrRun w (fun s x v => (s, x.csrWrite s.clock (w.extractLsb' 20 12).toNat v)) s x
  | _ => ccIllegal w

/-! ### Compressed forms -/

/-- The words of the base formats. -/
def encI (imm : BitVec 12) (rs1 : BitVec 5) (f3 : BitVec 3) (rd : BitVec 5) (op : BitVec 7) : BitVec 32 := imm ++ rs1 ++ f3 ++ rd ++ op
def encR (f7 : BitVec 7) (rs2 rs1 : BitVec 5) (f3 : BitVec 3) (rd : BitVec 5) (op : BitVec 7) : BitVec 32 :=
  f7 ++ rs2 ++ rs1 ++ f3 ++ rd ++ op
def encS (imm : BitVec 12) (rs2 rs1 : BitVec 5) (f3 : BitVec 3) (op : BitVec 7) : BitVec 32 :=
  imm.extractLsb' 5 7 ++ rs2 ++ rs1 ++ f3 ++ imm.extractLsb' 0 5 ++ op
def encB (imm : BitVec 13) (rs2 rs1 : BitVec 5) (f3 : BitVec 3) : BitVec 32 :=
  imm.extractLsb' 12 1 ++ imm.extractLsb' 5 6 ++ rs2 ++ rs1 ++ f3 ++ imm.extractLsb' 1 4 ++ imm.extractLsb' 11 1 ++ 0x63#7
def encJ (imm : BitVec 21) (rd : BitVec 5) : BitVec 32 :=
  imm.extractLsb' 20 1 ++ imm.extractLsb' 1 10 ++ imm.extractLsb' 11 1 ++ imm.extractLsb' 12 8 ++ rd ++ 0x6F#7

/-- Bits `i` for `n` of a compressed word. -/
def cb (h : BitVec 16) (i n : Nat) : BitVec n := h.extractLsb' i n

/-- Quadrant 0 of the compressed forms. -/
def rvc0 (h : BitVec 16) : Option (BitVec 32) :=
  let rd := 0b01#2 ++ cb h 2 3
  let rs := 0b01#2 ++ cb h 7 3
  let w : BitVec 12 := 0#5 ++ cb h 5 1 ++ cb h 10 3 ++ cb h 6 1 ++ 0#2
  let d : BitVec 12 := 0#4 ++ cb h 5 2 ++ cb h 10 3 ++ 0#3
  match (cb h 13 3).toNat with
  | 0 => if cb h 5 8 = 0 then none else some (encI (0#2 ++ cb h 7 4 ++ cb h 11 2 ++ cb h 5 1 ++ cb h 6 1 ++ 0#2) 2 0 rd 0x13)
  | 2 => some (encI w rs 2 rd 0x03)
  | 3 => some (encI d rs 3 rd 0x03)
  | 6 => some (encS w rd rs 2 0x23)
  | 7 => some (encS d rd rs 3 0x23)
  | _ => none

/-- Quadrant 1 of the compressed forms. -/
def rvc1 (h : BitVec 16) : Option (BitVec 32) :=
  let rd := cb h 7 5
  let rp := 0b01#2 ++ cb h 7 3
  let rs := 0b01#2 ++ cb h 2 3
  let i6 : BitVec 6 := cb h 12 1 ++ cb h 2 5
  let imm : BitVec 12 := i6.signExtend 12
  let br : BitVec 13 := (cb h 12 1 ++ cb h 5 2 ++ cb h 2 1 ++ cb h 10 2 ++ cb h 3 2 ++ 0#1).signExtend 13
  match (cb h 13 3).toNat with
  | 0 => some (encI imm rd 0 rd 0x13)
  | 1 => if rd = 0 then none else some (encI imm rd 0 rd 0x1B)
  | 2 => some (encI imm 0 0 rd 0x13)
  | 3 =>
    if i6 = 0 then none
    else if rd = 2 then
      some (encI ((cb h 12 1 ++ cb h 3 2 ++ cb h 5 1 ++ cb h 2 1 ++ cb h 6 1 ++ 0#4).signExtend 12) 2 0 2 0x13)
    else some ((i6.signExtend 20 ++ rd) ++ 0x37#7)
  | 4 =>
    match (cb h 10 2).toNat with
    | 0 => some (encI (0#6 ++ i6) rp 5 rp 0x13)
    | 1 => some (encI (0x10#6 ++ i6) rp 5 rp 0x13)
    | 2 => some (encI imm rp 7 rp 0x13)
    | _ =>
      match (cb h 12 1).toNat, (cb h 5 2).toNat with
      | 0, 0 => some (encR 0x20 rs rp 0 rp 0x33)
      | 0, 1 => some (encR 0 rs rp 4 rp 0x33)
      | 0, 2 => some (encR 0 rs rp 6 rp 0x33)
      | 0, _ => some (encR 0 rs rp 7 rp 0x33)
      | _, 0 => some (encR 0x20 rs rp 0 rp 0x3B)
      | _, 1 => some (encR 0 rs rp 0 rp 0x3B)
      | _, _ => none
  | 5 =>
    some (encJ ((cb h 12 1 ++ cb h 8 1 ++ cb h 9 2 ++ cb h 6 1 ++ cb h 7 1 ++ cb h 2 1 ++ cb h 11 1 ++ cb h 3 3 ++ 0#1).signExtend 21) 0)
  | 6 => some (encB br 0 rp 0)
  | _ => some (encB br 0 rp 1)

/-- Quadrant 2 of the compressed forms. -/
def rvc2 (h : BitVec 16) : Option (BitVec 32) :=
  let rd := cb h 7 5
  let rs := cb h 2 5
  match (cb h 13 3).toNat with
  | 0 => some (encI (0#6 ++ (cb h 12 1 ++ cb h 2 5)) rd 1 rd 0x13)
  | 2 => if rd = 0 then none else some (encI (0#4 ++ cb h 2 2 ++ cb h 12 1 ++ cb h 4 3 ++ 0#2) 2 2 rd 0x03)
  | 3 => if rd = 0 then none else some (encI (0#3 ++ cb h 2 3 ++ cb h 12 1 ++ cb h 5 2 ++ 0#3) 2 3 rd 0x03)
  | 4 =>
    if cb h 12 1 = 0 then
      if rs = 0 then (if rd = 0 then none else some (encI 0 rd 0 0 0x67)) else some (encR 0 rs 0 0 rd 0x33)
    else if rs = 0 then (if rd = 0 then some 0x00100073#32 else some (encI 0 rd 0 1 0x67))
    else some (encR 0 rs rd 0 rd 0x33)
  | 6 => some (encS (0#4 ++ cb h 7 2 ++ cb h 9 4 ++ 0#2) rs 2 2 0x23)
  | 7 => some (encS (0#3 ++ cb h 7 3 ++ cb h 10 3 ++ 0#3) rs 2 3 0x23)
  | _ => none

/-- The 32-bit instruction that a compressed one stands for. -/
def rvc (h : BitVec 16) : Option (BitVec 32) :=
  match (cb h 0 2).toNat with
  | 0 => rvc0 h
  | 1 => rvc1 h
  | 2 => rvc2 h
  | _ => none

/-- Whether the instruction memory holds the first bytes of the next instruction. -/
def CC.fetches (x : CC) : Bool := decide (x.pc.toNat + 2 ≤ x.imemSize)

/-- CONTROL_CORE_INSTRUCTION (R241): one RV64IMAC instruction; outside the instruction memory, an instruction access fault. -/
def execControlCoreInstruction (w : BitVec 32) (s : State) : Outcome :=
  ccRun (fun s x =>
    if !x.fetches then .error (1, x.pc)
    else if w.extractLsb' 0 2 = 3#2 then rv32 w 4 s x
    else
      match rvc (w.extractLsb' 0 16) with
      | some v => rv32 v 2 s x
      | none => ccIllegal w) s

/-! ### CSR accesses that are steps of their own -/

/-- ZCTKO_LIVE (R242, R244): oos bits are set; live ends the takeover, and the write retires when the held signals are out. -/
def execZctkoLive (w : BitVec 32) (s : State) : Outcome :=
  ccRun (csrRun w fun s x v =>
    let s := { s with ctl := { s.ctl with oos := s.ctl.oos ||| v.extractLsb' 0 4 } }
    if v.getLsbD 4 && s.ctl.tko then
      let s := { s with ctl := { s.ctl with tko := false } }
      if s.ctl.fifo.isEmpty then (s, x)
      else (({ s with ctl := { s.ctl with live := some s.ccActor } }).post (s.clock + 1) true 0 0 .release, x)
    else (s, x)) s

/-- ZJHEAD_WRITE (R262). -/
def execZjheadWrite (w : BitVec 32) (s : State) : Outcome :=
  ccRun (csrRun w fun s x v =>
    if s.ctl.zjhead.toNat ≤ v.toNat ∧ v.toNat ≤ s.ctl.zjtail.toNat + 1 then
      ({ s with ctl := { s.ctl with zjhead := v } }, x)
    else (s, x)) s

/-- Whether an operation in flight was translated by the clock's caches and writes a level (R292). -/
def Pending.writesLevel (p : Pending) (lvl : Nat) : Bool :=
  p.onClock && ((p.wr && p.lvl == lvl) || p.ev.places.any fun q => q.1.lvl == lvl)

/-- Whether a free launch's engine command still accesses a page of its job as its issue translated it (R225, R292). -/
def State.engineReads (s : State) (job : BitVec 16) (page : Nat) : Bool :=
  s.commands.any fun c => c.job == job && !c.done && !(s.launch c.launch).timed && mhas c.frames page

/-- What a withdrawal begun at clock `t0` waits for comes within 256 cycles of it (R292): the accesses in flight to the level have been
performed by then, and the engines, whose times are free (R223), go on without delay (log 22). -/
def State.hastens (s : State) (lvl t0 : Nat) (engines : Bool) : State :=
  { s with agenda := s.agenda.map fun p =>
      if p.writesLevel lvl then { p with due := min p.due (t0 + 256) }
      else
        match p.ev with
        | .engAcquire _ | .engStart _ | .engEnd _ | .engRelease _ => if engines then { p with due := min p.due (s.clock + 1) } else p
        | _ => p }

/-- ZXINV_WRITE (R292): every cache drops its unpinned entry; the write retires within 256 cycles, once the accesses in flight
have been performed, and those of the engine commands that issue translated through the entry. -/
def execZxinvWrite (w : BitVec 32) (s : State) : Outcome :=
  let n := s.ccActor
  let x := s.cc n
  match csrRun w (fun s x v =>
      let job := v.extractLsb' 48 16
      let page := (v.extractLsb' 21 27).toNat
      let cores := s.cores.map fun q =>
        (q.1, { q.2 with tlb := q.2.tlb.filter fun e => !(e.job == job && e.page == page && e.pinned.isNone) })
      ({ s with cores := cores }, x)) s x with
  | .ok (s', x') =>
    let v := csrOperand x w 0
    let page := (v.extractLsb' 21 27).toNat
    let lvl := (lvlOf (page * 0x200000)).getD 0
    let t0 := x.inv.getD s.clock
    if csrWrites w && s.engineReads (v.extractLsb' 48 16) page && decide (s.clock < t0 + 255) then
      .next { (s'.hastens lvl t0 true).setCC n { x with readyAt := s.clock + 1, inv := some t0 } with turn := .idle }
    else
    let last := s.agenda.foldl (fun m p => if p.writesLevel lvl then max m p.due else m) (s.clock + 1 + Config.freeNat s.free % 256)
    let x' := { x'.setReg 0xB02 (x'.reg 0xB02 + 1) with readyAt := max (s.clock + 1) (min last (t0 + 256)), done := x'.done + 1, inv := none }
    .next { (if csrWrites w then s'.hastens lvl t0 false else s').setCC n x' with free := s.free + 1, turn := .idle }
  | .error _ => ccRun (fun _ _ => ccIllegal w) s

/-- ZTRAPQ_READ (R276): the entry returned is removed. -/
def execZtrapqRead (w : BitVec 32) (s : State) : Outcome :=
  ccRun (fun s x => do
    let (s', x') ← csrRun w (fun s x _ => (s, x)) s x
    return (s', { x' with trapq := x'.trapq.drop 1 })) s

/-- REGISTER_WRITE (R255): zplim; a limit above 340 reads 340. -/
def execRegisterWrite (w : BitVec 32) (s : State) : Outcome :=
  ccRun (csrRun w fun s x v =>
    let lim := v.extractLsb' 0 9
    ({ s with ctl := { s.ctl with zplim := if 340 < lim.toNat then 340 else lim } }, x)) s

end Sys2Proof.Machine
end

