-- ==== Sys2Proof/Machine/Loader.lean ====
section
/-! DEFINITION. Images: their verification (R296), the Ndonefen layout (R304, R305) with its relocations (R306), the loading of a job
(R246 to R252, R260, R291) and of firmware (R293, R294), the start of tasks (R7, R8) and of launches that a peer starts (R193, R249). -/

namespace Sys2Proof.Machine

/-! ### Bytes of a file -/

/-- The little-endian number in `n` bytes of a file. -/
def fileN (bs : List Byte) (off n : Nat) : Nat := leWord ((bs.drop off).take n)

/-- Replaces `n` bytes of a file. -/
def patch (bs : List Byte) (off n v : Nat) : List Byte := bs.take off ++ leBytes n v ++ bs.drop (off + n)

/-- Replaces bits `lo` to `lo + w - 1` of `n` bytes at `off`. -/
def patchBits (bs : List Byte) (off n lo w v : Nat) : List Byte :=
  let x := fileN bs off n
  let low := x % 2 ^ lo
  let high := x / 2 ^ (lo + w)
  patch bs off n (low + (v % 2 ^ w) * 2 ^ lo + high * 2 ^ (lo + w))

/-- Why an image is refused (R85, R171, R248, R249, R296, R305, R306), with what the refusal reports. -/
inductive ImageError where
  | signature
  | key
  | header
  | badSection (i : Nat)
  | reloc (sect off type : Nat) (v : Int)
  | descriptor (launch : Nat) (field : Nat)
  | placement (launch task : Nat)
  | slotTable (sect key bit : Nat)
  | table
  | version
  | carveOut (kernel directive : Nat)
  deriving DecidableEq, Repr

/-- The words of a refusal: the failed check, and what its rule reports (R171, R248, R249, R296, R306). -/
def ImageError.words : ImageError → List (BitVec 64)
  | .signature => [1]
  | .key => [2]
  | .header => [3]
  | .badSection i => [4, BitVec.ofNat 64 i]
  | .reloc sect off type v => [5, BitVec.ofNat 64 sect, BitVec.ofNat 64 off, BitVec.ofNat 64 type, BitVec.ofInt 64 v]
  | .descriptor l f => [6, BitVec.ofNat 64 l, BitVec.ofNat 64 f]
  | .placement l t => [7, BitVec.ofNat 64 l, BitVec.ofNat 64 t]
  | .slotTable sect k bit =>
    [8, BitVec.ofNat 64 sect, BitVec.ofNat 64 (k / 2048), BitVec.ofNat 64 (k / 32 % 64), BitVec.ofNat 64 (k % 32), BitVec.ofNat 64 bit]
  | .table => [9]
  | .version => [10]
  | .carveOut k i => [11, BitVec.ofNat 64 k, BitVec.ofNat 64 i]

/-! ### Verification (R295, R296) -/

/-- Bytes of the fuses (R295). -/
def State.fuseBytes (s : State) (off n : Nat) : List Byte := (List.range n).map fun i => Memory.read s.out.fuses (off + i)

/-- Whether owner key `n` may sign: used and not revoked (R295, R299). -/
def State.ownerKey (s : State) (n : Nat) : Bool :=
  decide (n < 4) && (s.fuseBytes (0x40 + 64 * n) 64).any (fun b => b != 0) &&
    !(Memory.read s.out.fuses 0x140).getLsbD n

/-- The key hash that a key index names for an image: rootkey for firmware, an owner key for a job image (R296, R300). -/
def State.keyHash (s : State) (firmware : Bool) (key : Nat) : Option (List Byte) :=
  if firmware then (if key = 0xFF then some (s.fuseBytes 0 64) else none)
  else if s.ownerKey key then some (s.fuseBytes (0x40 + 64 * key) 64) else none

/-- The bytes before the signature block. -/
def imageBody (bs : List Byte) : List Byte := bs.take (bs.length - 72)

/-- Verifies an image (R296): its key index and digest. -/
def State.verify (s : State) (firmware : Bool) (bs : List Byte) : Except ImageError (Nat × List Byte) :=
  let body := imageBody bs
  let key := fileN bs body.length 8
  let pub := (bs.drop 0x20).take 32
  let digest := sha512 body
  if bs.length < 136 ∨ fileN bs 0 4 ≠ 0x4E46444E ∨ fileN bs 4 2 ≠ 1 then .error .header
  else
    match s.keyHash firmware key with
    | none => .error .key
    | some h =>
      if sha512 pub ≠ h then .error .key
      else if edVerify pub digest (bs.drop (body.length + 8)) then .ok (key, digest) else .error .signature

/-! ### Sections (R305) -/

/-- An entry of the section table, with the section's bytes. -/
structure Sect where
  type : Nat
  level : Nat
  flags : Nat
  kernel : Nat
  addr : Nat
  bytes : List Byte
  deriving DecidableEq, Repr

/-- Whether a section type may carry a level (log 24): data and codices any level, every other type none. -/
def levelOk (type level : Nat) : Bool := if type = 3 ∨ type = 5 then decide (1 ≤ level ∧ level ≤ 4) else level == 0

/-- Section `i` of an image. -/
def sectAt (bs : List Byte) (i : Nat) : Except ImageError Sect :=
  let t := fileN bs 0x10 8 + 32 * i
  let x : Sect := ⟨fileN bs t 1, fileN bs (t + 1) 1, fileN bs (t + 2) 2, fileN bs (t + 4) 4, fileN bs (t + 8) 8,
    (bs.drop (fileN bs (t + 0x18) 8)).take (fileN bs (t + 0x10) 8)⟩
  if x.type < 1 ∨ 12 < x.type ∨ !levelOk x.type x.level ∨ bs.length < fileN bs (t + 0x18) 8 + fileN bs (t + 0x10) 8 then
    .error (.badSection i)
  else .ok x

/-- The sections of an image. -/
def sectsOf (bs : List Byte) : Except ImageError (List Sect) := (List.range (fileN bs 8 4)).mapM (sectAt bs)

/-- The bytes of the first section of a type. -/
def bytesOfType (xs : List Sect) (type : Nat) : List Byte := ((xs.find? fun x => x.type == type).map Sect.bytes).getD []

/-! ### Relocations (R304, R306) -/

/-- A symbol's value: a constant is signed, a label's is its index (R304, R312). -/
def symbolAt (syms : List Byte) (i : Nat) : Int :=
  let v := BitVec.ofNat 64 (fileN syms (16 * i) 8)
  if fileN syms (16 * i + 0x0A) 1 = 0 then v.toInt else v.toNat

/-- The byte address of a target of control code (R306): a label's is that of its instruction in its section. -/
def targetAt (syms : List Byte) (xs : List Sect) (i : Nat) : Int :=
  if fileN syms (16 * i + 0x0A) 1 = 1 then ((xs[fileN syms (16 * i + 8) 2]?).map Sect.addr).getD 0 + 4 * symbolAt syms i else symbolAt syms i

/-- Applies one relocation to a section's bytes; a value that its field cannot take is refused (R306). -/
def relocate (syms : List Byte) (e : List Byte) (xs : List Sect) : Except ImageError (List Sect) :=
  let off := fileN e 0 4
  let si := fileN e 4 2
  let type := fileN e 6 1
  let sym := fileN e 8 4
  let add := (BitVec.ofNat 32 (fileN e 12 4)).toInt
  match xs[si]? with
  | none => .error (.badSection si)
  | some x =>
    let abs := symbolAt syms sym + add
    let bundles := abs - ((off / 32 : Nat) : Int)
    let bytes := targetAt syms xs sym + add - ((x.addr + off : Nat) : Int)
    let put := fun (ok : Bool) (v : Int) (bs : List Byte) =>
      if ok then Except.ok (xs.set si { x with bytes := bs }) else .error (.reloc si off type v)
    let ctl := fun (lo w : Nat) (v : Int) => patchBits x.bytes (off / 32 * 32) 32 (220 + lo) w (v % 2 ^ 64).toNat
    match type with
    | 1 => put true abs (patch x.bytes off 8 (abs % 2 ^ 64).toNat)
    | 2 => put (decide (0 ≤ abs ∧ abs < 2 ^ 32)) abs (patch x.bytes off 4 (abs % 2 ^ 64).toNat)
    | 3 => put (decide (-(2 ^ 21) ≤ abs ∧ abs < 2 ^ 21)) abs (ctl 0 22 abs)
    | 4 => put (decide (abs % 2 ^ 22 = 0 ∧ 0 ≤ abs ∧ abs ≤ 2 ^ 44 - 2 ^ 22)) abs (ctl 0 22 (abs / 2 ^ 22))
    | 5 => put (decide (-8192 ≤ bundles ∧ bundles ≤ 8191)) bundles (ctl 0 14 bundles)
    | 6 => put (decide (1 ≤ bundles ∧ bundles ≤ 1023)) bundles (ctl 4 10 bundles)
    | 7 => put (decide (-128 ≤ abs ∧ abs ≤ 127 ∧ off % 32 < 8)) abs
        (patchBits x.bytes (off / 32 * 32) 32 (24 * (off % 32) + 10) 8 (abs % 2 ^ 64).toNat)
    | 8 =>
      let hi := (bytes + 0x800) / 4096
      put (decide (-(2 ^ 19) ≤ hi ∧ hi < 2 ^ 19)) bytes (patchBits x.bytes off 4 12 20 (hi % 2 ^ 64).toNat)
    | 9 =>
      let lo := (bytes % 4096).toNat
      if fileN x.bytes off 1 % 128 = 0x23 then
        put true bytes (patchBits (patchBits x.bytes off 4 7 5 lo) off 4 25 7 (lo / 32))
      else put true bytes (patchBits x.bytes off 4 20 12 lo)
    | _ => .error (.reloc si off type abs)

/-- Applies the relocations of an image in order. -/
def relocated (bs : List Byte) (xs : List Sect) : Except ImageError (List Sect) :=
  (List.range (fileN bs 0x0C 4)).foldlM (fun xs i => relocate (bytesOfType xs 10) ((bs.drop (fileN bs 0x18 8 + 16 * i)).take 16) xs) xs

/-! ### Kernels (R304) -/

/-- The bundles of code. -/
def bundlesOf (bs : List Byte) : List (BitVec 256) := (List.range (bs.length / 32)).map fun i => BitVec.ofNat 256 (fileN bs (32 * i) 32)

/-- A task's context record (R304). -/
def kctxOf (w : BitVec 32) : KCtx :=
  ⟨w.extractLsb' 0 13, w.getLsbD 13, w.extractLsb' 14 2, if w.getLsbD 31 then w.extractLsb' 16 8 else 0,
   if w.getLsbD 31 then BitVec.ofNat 21 ((w.extractLsb' 24 7).toNat * 0x4000) else 0⟩

/-- The sections of a kernel, and those that name no kernel. -/
def sectsFor (xs : List Sect) (i type : Nat) : List Sect :=
  xs.filter fun x => x.type == type && (x.kernel == i || (type == 3 || type == 5 || type == 9) && x.kernel == 0xFFFFFFFF)

/-- Kernel record `i` (R304). -/
def kernelAt (xs : List Sect) (i : Nat) : Kernel :=
  let t := bytesOfType xs 12
  let o := 32 * i
  let code := xs[fileN t (o + 4) 2]?
  let control := fileN t (o + 6) 1 = 1
  let bytes := (code.map Sect.bytes).getD []
  let kv := fun (type : Nat) => (sectsFor xs i type).flatMap fun x => Config.sectionData type x.bytes
  { name := ((bytesOfType xs 11).drop (fileN t o 4)).takeWhile fun b => b != 0
    control := control
    base := if control then 0 else (code.map fun x => x.addr / 32).getD 0
    code := if control then [] else bundlesOf bytes
    ctl := if control then bytes else []
    ctlBase := if control then (code.map Sect.addr).getD 0 else 0
    ctlMask := if control then BitVec.ofNat 4 ((code.map Sect.flags).getD 0) else 0
    ctxs := if control then [] else (List.range (fileN t (o + 7) 1)).map fun j => kctxOf (BitVec.ofNat 32 (fileN t (o + 8 + 4 * j) 4))
    startIdx := BitVec.ofNat 16 (fileN t (o + 8) 2), takeIdx := BitVec.ofNat 16 (fileN t (o + 10) 2)
    params := (List.range (fileN t (o + 0x18) 1)).map fun j =>
      BitVec.ofNat 64 (fileN ((sectsFor xs i 7).flatMap Sect.bytes) (8 * j) 8)
    recipes := (kv 4).foldl (fun m e => mput m e.1 (BitVec.ofNat 12 e.2)) []
    data := (sectsFor xs i 3 ++ sectsFor xs i 5).map fun x => ⟨x.level, x.addr, x.bytes⟩
    marks := (sectsFor xs i 9).flatMap fun x => (List.range (x.bytes.length / 16)).map fun j =>
      (fileN x.bytes (16 * j) 8, BitVec.ofNat 32 (fileN x.bytes (16 * j + 8) 4))
    slots := (kv 6).foldl (fun m e => mput m e.1 (BitVec.ofNat 64 e.2)) [] }

/-- The first bit i with i mod 8 = 7 that a slot table marks (R171). -/
def badTable (w : BitVec 64) : Option Nat := ((List.range 8).map fun j => 8 * j + 7).find? fun i => w.getLsbD i

/-- The first slot-table section that marks such a bit (R171). -/
def slotsBad (xs : List Sect) : Option ImageError :=
  xs.zipIdx.findSome? fun x =>
    if x.1.type ≠ 6 then none
    else (Config.sectionData 6 x.1.bytes).findSome? fun e => (badTable (BitVec.ofNat 64 e.2)).map fun b => ImageError.slotTable x.2 e.1 b

/-- The first directive whose carve-out leaves the carrel or overlaps a folio of the kernel's data sections (R85). -/
def Kernel.carveBad (k : Kernel) : Option Nat :=
  k.ctxs.zipIdx.findSome? fun d =>
    if 128 < d.1.cfol.toNat ∨ (d.1.slots.any fun a => decide (128 ≤ a)) ∨ (d.1.slots.any fun a => k.dataSlots.contains a) then some d.2
    else none

/-- The kernels of an image, with the check of their slot tables and of their carve-outs. -/
def kernelsOf (xs : List Sect) : Except ImageError (List Kernel) :=
  match slotsBad xs with
  | some e => .error e
  | none =>
    (List.range ((bytesOfType xs 12).length / 32)).mapM fun i =>
      let k := kernelAt xs i
      match k.carveBad with
      | some j => .error (.carveOut i j)
      | none => .ok k

/-- The symbols of an image: name and value (R304). -/
def symbolsOf (xs : List Sect) : List (List Byte × Int) :=
  let t := bytesOfType xs 10
  (List.range (t.length / 16)).map fun i =>
    (((bytesOfType xs 11).drop (fileN t (16 * i + 0x0C) 4)).takeWhile fun b => b != 0, symbolAt t i)

/-- The image of a file: verified, then read, then relocated (R296, R305, R306). -/
def State.readImage (s : State) (firmware : Bool) (bs : List Byte) : Except ImageError (Image × List Sect) := do
  let (key, digest) ← s.verify firmware bs
  let xs ← sectsOf bs
  let xs ← relocated bs xs
  let ks ← kernelsOf xs
  return ({ key := key, kernels := ks, digest := digest, firmware := firmware, version := BitVec.ofNat 16 (fileN bs 6 2)
            symbols := symbolsOf xs }, xs)

/-! ### The job plan (R248 to R252) -/

/-- The first field of a descriptor that breaks R248, given the number of kernels. -/
def descriptorBad (s : State) (d : List Byte) (kernels : List Kernel) : Option Nat :=
  let l := fileN d 0 8
  let flags := BitVec.ofNat 8 (fileN d 0x0D 1)
  let colo := fileN d 0x28 8
  let k := kernels[fileN d 8 4]?
  if mhas s.ctl.launches l then some 0
  else if (match k with | some k => k.control | none => true) = true then some 0x08
  else if flags.extractLsb' 2 2 ≠ 0 ∨ (!flags.getLsbD 0 ∧ flags.extractLsb' 4 4 = 0) then some 0x0D
  else if !flags.getLsbD 0 && (match k with | some k => k.ctxs.length != 1 || k.ctxs.any KCtx.timed | none => true) then some 0x0D
  else if fileN d 0x0E 2 < 1 ∨ 340 < fileN d 0x0E 2 then some 0x0E
  else if fileN d 0x18 4 < 1 ∨ 2 ^ 20 < fileN d 0x18 4 then some 0x18
  else if 4095 < fileN d 0x1C 2 ∧ fileN d 0x1C 2 ≠ 0xFFFF then some 0x1C
  else if fileN d 0x1E 2 ≠ 0 then some 0x1E
  else if colo % 64 ≠ 0 ∨ (ccLevel colo ≠ some 0 ∧ ccLevel colo ≠ some 2) then some 0x28
  else none

/-- This package's position in its group: the number of members with a lower serial (log 15). -/
def State.position (s : State) : Nat :=
  let me := BitVec.ofNat 64 (leWord (s.fuseBytes 0x142 8))
  s.gs.members.countP fun m => decide (m.toNat < me.toNat)

/-- The placement of a task entry (R249): the core here, or 512 for another package, and the context. -/
def taskEntry (me w : Nat) : Nat × Nat := (if w / 2 ^ 11 % 256 = me then w % 512 else 512, w / 512 % 4)

/-- The port bindings that follow a placement table's task entries (R249): package position, port and core. -/
def bindings (rd : Nat → Nat) (at_ : Nat) : Nat → List (Nat × Nat × Nat)
  | 0 => []
  | fuel + 1 =>
    let w := rd at_
    if w < 2 ^ 31 then [] else (w / 2 ^ 15 % 256, w % 64, w / 64 % 512) :: bindings rd (at_ + 4) fuel

/-- The port bindings that a table can hold: 48 ports on each of 256 packages (R202, R249). -/
def bindingsMax : Nat := 12288

/-- The first task whose entry breaks R249: another context than its directive's, a bit that must be zero, or a second timed context
on a core. -/
def placementBad (k : Kernel) (ws : List Nat) : Option Nat :=
  (List.range ws.length).find? fun t =>
    let w := (ws[t]?).getD 0
    decide (2 ^ 19 ≤ w) || w / 512 % 4 != (k.ctxOf t).n.toNat ||
      ((k.ctxOf t).timed && (List.range t).any fun u => (k.ctxOf u).timed && ((ws[u]?).getD 0) % 2 ^ 9 == w % 2 ^ 9 &&
        ((ws[u]?).getD 0) / 2 ^ 11 == w / 2 ^ 11)

/-- The first task whose carve-out overlaps that of a task before it on another context of its core (R85). -/
def carvesMeetAt (k : Kernel) (ws : List Nat) : Option Nat :=
  (List.range ws.length).find? fun t =>
    let w := (ws[t]?).getD 0
    (List.range t).any fun u =>
      let v := (ws[u]?).getD 0
      v % 2 ^ 9 == w % 2 ^ 9 && v / 2 ^ 11 == w / 2 ^ 11 && v / 2 ^ 9 != w / 2 ^ 9 &&
        (k.ctxOf u).slots.any fun a => (k.ctxOf t).slots.contains a

/-- The first directive of a launch whose carve-out overlaps another context's on a core (R85): by the placement table, or, in a seeded
launch of more than one task, where its mask puts the one directive on more than one context. -/
def carvesClash (k : Kernel) (timed : Bool) (mask : BitVec 4) (ws : List Nat) : Option Nat :=
  if timed then (carvesMeetAt k ws).map fun t => t % k.ctxs.length
  else if 1 < (maskCtxs mask).length ∧ 1 < ws.length ∧ !(k.ctxOf 0).slots.isEmpty then some 0
  else none

/-- The launch of a descriptor (R85, R248 to R250). -/
def launchOf (s : State) (d : List Byte) (image : Nat) (kernels : List Kernel) (preds : List (BitVec 64)) :
    Except ImageError Launch :=
  let l := fileN d 0 8
  match descriptorBad s d kernels with
  | some f => .error (.descriptor l f)
  | none =>
    let k := (kernels[fileN d 8 4]?).getD kernelZero
    let flags := BitVec.ofNat 8 (fileN d 0x0D 1)
    let n := fileN d 0x18 4
    let at_ := fileN d 0x30 8
    let rd := fun a => s.ccRead a 4
    let ws := (List.range n).map fun t => rd (at_ + 4 * t)
    let timed := flags.getLsbD 0
    let bound := if timed then bindings rd (at_ + 4 * n) bindingsMax else []
    match (if timed then placementBad k ws else none) with
    | some t => .error (.placement l t)
    | none =>
    match carvesClash k timed (flags.extractLsb' 4 4) ws with
    | some j => .error (.carveOut (fileN d 8 4) j)
    | none =>
      .ok { launchZero with
        descriptor := d, kernel := fileN d 8 4, image := image, queue := BitVec.ofNat 8 (fileN d 0x0C 1), timed := timed
        strict := flags.getLsbD 1, ctxMask := flags.extractLsb' 4 4, energy := BitVec.ofNat 16 (fileN d 0x0E 2)
        seed := BitVec.ofNat 64 (fileN d 0x10 8), tasks := n, kick := BitVec.ofNat 16 (fileN d 0x1C 2)
        budget := BitVec.ofNat 64 (fileN d 0x20 8), colophon := BitVec.ofNat 64 (fileN d 0x28 8)
        placement := if timed then ws.map (taskEntry s.position) else []
        eligible := if timed then 0 else BitVec.ofNat 512 (s.ccRead at_ 64)
        params := k.params.zipIdx.foldl (fun m p => if p.2 < 64 then mput m p.2 p.1 else m) []
        preds := preds, ports := (bound.filter fun b => b.1 == s.position).map Prod.snd
        far := (bound.filter fun b => b.1 != s.position).map fun b => (b.1, b.2.1)
        slots := k.slots, state := 1 }

/-- Adds launches to the launch status table, which holds 4,096 (R248). -/
def addLaunches (s : State) (image : Nat) (kernels : List Kernel) (preds : List (Nat × Nat)) (ds : List (List Byte)) :
    Except ImageError State :=
  ds.foldlM (fun s d => do
    if 4096 ≤ s.ctl.launches.length then throw .table
    let l := fileN d 0 8
    let x ← launchOf s d image kernels ((preds.filter fun p => p.1 == l).map fun p => BitVec.ofNat 64 p.2)
    return s.setLaunch (BitVec.ofNat 64 l) x) s

/-! ### Page tables (R291, log 19) -/

/-- The frames that the tables of the jobs map. -/
def State.framesUsed (s : State) (tags : List (BitVec 16 × Nat)) : List Nat :=
  tags.map fun t => ((s.pte t.1 t.2).extractLsb' 21 27).toNat

/-- Whether a frame is withheld from every page table: it failed its self-test (R293), or it lies in the staging area (R303). -/
def State.withheld (s : State) (f : Nat) : Bool :=
  Config.faultyFrame f || decide (pageOf (lvlBase 3) ≤ f ∧ s.out.area ≤ f ∧ f < s.out.area + Config.stagingFrames)

/-- The first frame from a free one on, cyclically among `n` from `first`, that may be used. -/
def freeFrame (bad : Nat → Bool) (first n i : Nat) : Nat → Option Nat
  | 0 => none
  | fuel + 1 => if bad (first + i % n) then freeFrame bad first n (i + 1) fuel else some (first + i % n)

/-- A frame for a page, of the control complex's choice: a gallery page's lies in the gallery, a stacks page's in the stack that the
page's address names (R224). -/
def State.frameFor (s : State) (used : List Nat) (page d : Nat) : Option Nat :=
  let bad := fun f => s.withheld f || used.contains f
  if pageOf (lvlBase 3) ≤ page then freeFrame bad (page / 32768 * 32768) 32768 d 32768
  else freeFrame bad (pageOf (lvlBase 2)) 3584 d 3584

/-- The firmware maps a page for reads and writes (R67, R291); with no frame left the page stays absent. -/
def State.mapPage (s : State) (used : List Nat) (job : BitVec 16) (page : Nat) : State × List Nat :=
  match s.pteAt job page with
  | none => (s, used)
  | some a =>
    if pteOk (s.pte job page) then (s, used)
    else
      let (d, s) := s.draw
      match s.frameFor used page d with
      | some f => (s.ccPut (cellsOf a 8 (7 * 2 ^ 61 + f * 2 ^ 21)), used ++ [f])
      | none => (s, used)

/-- The pages that the sections of kernels touch. -/
def sectionPages (ks : List Kernel) : List Nat := (ks.flatMap Kernel.pages).dedup

/-- The frames that a table, or a page of any job's sections, uses. -/
def State.usedFrames (s : State) : List Nat :=
  let mapped := s.out.images.flatMap fun im => sectionPages im.kernels
  let jobs := (s.tables.map fun q => BitVec.ofNat 16 (q.1 / 2)).dedup
  s.framesUsed (jobs.flatMap fun j => mapped.map fun p => (j, p)) ++ s.tables.map fun q => pageOf q.2

/-- One of a job's two tables takes a frame of the gallery. -/
def State.makeTable (s : State) (key : Nat) : State :=
  let (d, s) := s.draw
  match s.frameFor s.usedFrames (pageOf (lvlBase 2)) d with
  | some f => { s with tables := mput s.tables key (f * 0x200000) }
  | none => s

/-- A job's tables, placed in the gallery by the firmware at the first load of the job. -/
def State.makeTables (s : State) (job : BitVec 16) : State :=
  if mhas s.tables (2 * job.toNat) then s else (s.makeTable (2 * job.toNat)).makeTable (2 * job.toNat + 1)

/-- Maps the pages of a job's sections; no frame that a table page or an earlier page of any job uses. -/
def State.mapJob (s : State) (job : BitVec 16) (ks : List Kernel) : State :=
  let s := s.makeTables job
  ((sectionPages ks).foldl (fun (acc : State × List Nat) p => acc.1.mapPage acc.2 job p) (s, s.usedFrames)).1

/-! ### What an image loads into the control complex (R293, R305) -/

/-- Control code is written into a control core's instruction memory at its load address. -/
def State.loadCode (s : State) (n addr : Nat) (bytes : List Byte) : State :=
  let x := s.cc n
  s.setCC n { x with
    imem := Memory.writeAll x.imem (cellsOfBytes addr bytes), imemSize := max x.imemSize (addr + bytes.length)
    imemBad := x.imemBad.filter fun a => !decide (addr ≤ a ∧ a < addr + bytes.length) }

/-- The labels of a control kernel give the vectors of a control core that its code is loaded into, whose instructions count from the
kernel's first (R241). -/
def State.setVectors (s : State) (n : Nat) (k : Kernel) : State :=
  let idx := fun (w : BitVec 16) => if w = 0xFFFF then none else some (k.ctlBase / 4 + w.toNat)
  s.setCC n { s.cc n with base := k.ctlBase, startPc := idx k.startIdx, takePc := idx k.takeIdx }

/-- The data and codices of an image that lie in the control complex's SRAM are written. -/
def State.loadData (s : State) (xs : List Sect) : State :=
  xs.foldl (fun s x => if (x.type = 3 ∨ x.type = 5) ∧ x.level = 4 then s.ccPut (cellsOfBytes x.addr x.bytes) else s) s

/-- The control code of an image goes to those of the control cores of a list that its flags name. -/
def State.loadCodes (s : State) (who : List Nat) (xs : List Sect) (ks : List Kernel) : State :=
  let named := fun (f : State → Nat → State) (flags : Nat) (s : State) =>
    who.foldl (fun s n => if (BitVec.ofNat 16 flags).getLsbD n then f s n else s) s
  let s := xs.foldl (fun s x => if x.type = 2 then named (fun s n => s.loadCode n x.addr x.bytes) x.flags s else s) s
  ks.foldl (fun s k => if k.control then named (fun s n => s.setVectors n k) k.ctlMask.toNat s else s) s

/-! ### Loading a job image -/

/-- Loads a job image whole, or refuses it whole (R246 to R252, R260, R296, R297). -/
def State.loadJob (s : State) (bs : List Byte) : Except ImageError (State × Image) := do
  let (im, xs) ← s.readImage false bs
  let (ds, sizes, queues, preds) := Config.plan (bytesOfType xs 8)
  let index := s.out.images.length
  let s1 := { s with out := { s.out with images := s.out.images ++ [im] } }
  let s1 := (s1.loadData xs).loadCodes (List.range 4) xs im.kernels
  let s1 := { s1 with ctl := { s1.ctl with
    levels := sizes.foldl (fun m q => mput m (q.1 * 2 ^ 64 + q.2.1) ⟨0, q.2.2, false⟩) s1.ctl.levels
    queues := queues.foldl (fun m q => mput m q.1 { queueZero with prio := BitVec.ofNat 3 q.2 }) s1.ctl.queues } }
  let s2 ← addLaunches s1 index im.kernels preds ds
  let jobs := (ds.map fun d => BitVec.ofNat 16 (fileN d 6 2)).dedup
  let s3 := jobs.foldl (fun s j => s.mapJob j im.kernels) s2
  return (s3.record 2 im.key im.digest 0, im)

/-- A request's launch is in the launch status table, and its job's sections are mapped (R165, R193). -/
def State.loadRequest (s : State) (l : BitVec 64) (r : LaunchReq) (k : Kernel) : State :=
  if 4096 ≤ s.ctl.launches.length then s
  else (({ s with free := s.free + 1 }).mapJob (jobOf l) ((s.out.images[r.image]?.map Image.kernels).getD [])).setLaunch l (launchOfReq s r k)

/-- The start of a launch that another package's control complex carries here (R193, R249): a launch loaded here, or the one that Callote
has requested there; a timed one starts at the T0 that the start names. CC3 supervises it. -/
def State.peerStart (s : State) (l : BitVec 64) (t0 : Nat) (r : Option LaunchReq) : State :=
  let s := match r with
    | none => s
    | some r =>
      match (s.out.images[r.image]?).bind fun im => im.kernels[r.kernel]? with
      | some k => if (s.launch l).state = 0 ∧ requestOk r k then s.loadRequest l r k else s
      | none => s
  if (!(s.launch l).timed || decide (s.now < t0)) ∧ s.zlaunchCode l t0 = 0 then s.startLaunch l 3 t0 else s

/-- TASK_START (R7, R8), and the start of a launch that a peer carries here (R249). -/
def execTaskStart (s : State) : Outcome :=
  match s.cause with
  | .due p =>
    let s := s.taken p
    match p.ev with
    | .taskStart l t c k => .next (startTask s l t c k)
    | _ => .next s
  | _ => onInput s fun x s => match x with | .peerStart l t0 r => s.peerStart l t0 r | _ => s

/-- A control core stands at its `start`, active or standing by (R241, R245). -/
def State.readyControl (s : State) (n : Nat) (active : Bool) : State :=
  let x := s.cc n
  s.setCC n { x with active := active, standby := !active, stopped := true, machine := true, pc := vectorPc x.startPc }

/-- A control core's instruction memory is emptied. -/
def State.emptyControl (s : State) (n : Nat) : State := s.setCC n { s.cc n with imem := [], imemSize := 0, imemBad := [] }

/-- A control kernel is loaded into a control core (R241, R245): the pc stands at `start`. -/
def State.loadControl (s : State) (n : Nat) (k : Kernel) (active : Bool) : State :=
  let s := s.emptyControl n
  ((s.loadCode n k.ctlBase k.ctl).setVectors n k).readyControl n active

end Sys2Proof.Machine
end

