-- ==== Sys2Proof/Machine/Services.lean ====
section
/-! DEFINITION. Services of sysc (R54, R254), phase boundaries as steps (R180), takeover and standby errors (R263), the end
of Callote's stops (R210), enqueues from the fabric (R253). -/

namespace Sys2Proof.Machine

/-! ### Services (R254) -/

/-- What a service gives: the state after it and S1. -/
abbrev Service := State → BitVec 64 → List (BitVec 64) → State × BitVec 64

/-- Argument `i` of a service, from S1. -/
def arg (xs : List (BitVec 64)) (i : Nat) : BitVec 64 := (xs[i]?).getD 0

/-- The supervising control core completes a service for the launch that asked for it (R54, R254): a free context that still waits for that
very service, also under a trap's handler, receives S1, and goes on as after a wait (R50). -/
def serve (f : BitVec 16 → Service) (s : State) : Outcome :=
  onDue s fun p s =>
    match p.ev with
    | .service n args l =>
      let (s, v) := f n s l args
      let y := s.ctx p.core p.ctx
      if p.ctx < 4 ∧ y.awaits (.service p.seq) then
        s.setCtx p.core p.ctx
          { (y.endWait (.service p.seq)).mend 1 with readyAt := max y.readyAt (s.clock + 1), regs := y.regs.wrS 1 ⟨v, 0, false⟩ }
      else s
    | _ => s

/-- A service that no rule names does nothing and gives all ones. -/
def noService : Service := fun s _ _ => (s, BitVec.allOnes 64)

/-- Service 1: enqueue. -/
def serviceEnqueue : Service := fun s own args =>
  let l := arg args 0
  let d := arg args 1
  let x := s.launch l
  if jobOf l ≠ jobOf own ∨ x.state ≠ 1 ∨ x.enqueued then (s, 0)
  else if d = BitVec.allOnes 64 then s.enqueue l x.queue (s.queue x.queue).prio none
  else if d.extractLsb' 32 32 ≠ l.extractLsb' 32 32 then (s, 0)
  else s.enqueue l x.queue (s.queue x.queue).prio (some (d.extractLsb' 0 32))

/-- Service 2: status. -/
def serviceStatus : Service := fun s own args =>
  if jobOf (arg args 0) ≠ jobOf own then (s, 0) else (s, s.colo (arg args 0) (arg args 1))

/-- Service 3: cancel. -/
def serviceCancel : Service := fun s own args =>
  if 3 < (arg args 1).toNat then (s, BitVec.allOnes 64)
  else if jobOf (arg args 0) ≠ jobOf own then (s, 0)
  else
    let (s, n) := s.cancel (arg args 1).toNat (arg args 0)
    (s, BitVec.ofNat 64 n)

/-- Service 4: kick. -/
def serviceKick : Service := fun s _ args =>
  let n := (arg args 0).toNat
  if 256 ≤ n ∧ n ≤ 4095 then (s.kick n, 0) else (s, BitVec.allOnes 64)

/-- SYSC_ENQUEUE (R254). -/
def execSyscEnqueue (s : State) : Outcome := serve (fun n => if n = 1 then serviceEnqueue else noService) s
/-- SYSC_STATUS (R254). -/
def execSyscStatus (s : State) : Outcome := serve (fun n => if n = 2 then serviceStatus else noService) s
/-- SYSC_CANCEL (R254). -/
def execSyscCancel (s : State) : Outcome := serve (fun n => if n = 3 then serviceCancel else noService) s
/-- SYSC_KICK (R254), and the services that no rule names. -/
def execSyscKick (s : State) : Outcome := serve (fun n => if n = 4 then serviceKick else noService) s

/-! ### Boundaries (R180) -/

/-- MERGE_OVERRUN (R180). -/
def execMergeOverrun (s : State) : Outcome :=
  onDue s fun p s => match p.ev with | .overrun l => overrunBoundary s l | _ => s

/-- A timed context of a launch on another package of the group issues phase group in this cycle: the boundary opens here too, or the phase
joins it late, which counts as a skew (R176, log 29). -/
def State.peerPhase (s : State) (l : BitVec 64) (w : Nat) : State :=
  let x := s.launch l
  if x.state = 2 ∧ x.timed then s.setLaunch l (x.phaseAt s.now (max w s.gs.hLat) 1 []) else s

/-- BOUNDARY_COMPLETE (R180); the phase of a peer under group scope (R176). -/
def execBoundaryComplete (s : State) : Outcome :=
  match s.cause with
  | .input _ => onInput s fun x s => match x with | .peerPhase l w => s.peerPhase l w.toNat | _ => s
  | _ => onDue s fun p s => match p.ev with | .boundary l => completeBoundary s l | _ => s

/-! ### Takeover (R244, R263) -/

/-- Whether a control core is in service: its oos bit is clear. -/
def State.ccServes (s : State) (n : Nat) : Bool := !(s.ctl.oos.getLsbD n)

/-- The core that a takeover goes to (R263): one that stands by, else an active scheduler still in service. -/
def State.successor (s : State) (failed : Nat) : Option (Nat × Bool) :=
  match (List.range 4).find? fun m => m != failed && (s.cc m).standby && s.ccServes m with
  | some m => some (m, true)
  | none =>
    ((List.range 3).find? fun m => m != failed && (s.cc m).active && !(s.cc m).stopped && s.ccServes m).map fun m => (m, false)

/-- The launches that a failed control core supervises, and its queue, go to another (R276). -/
def State.adopt (s : State) (failed m : Nat) : State :=
  let launches := s.ctl.launches.map fun q =>
    (q.1, if q.2.supervisor.toNat = failed then { q.2 with supervisor := BitVec.ofNat 2 m } else q.2)
  let x := s.cc failed
  let s := { s with ctl := { s.ctl with launches := launches } }
  let s := s.setCC m { s.cc m with trapq := (s.cc m).trapq ++ x.trapq }
  s.setCC failed { x with trapq := [] }

/-- A control core stops at a fetch that fails, an injected error is spent, and Callote's session shows core, instruction and count
(R245, R263). -/
def State.machineCheck (s : State) (n : Nat) : State :=
  let x := s.cc n
  let y := x.interrupts
  (s.setCC n { x with stopped := true, imemBad := x.imemBad.filter fun a => !y.reads a }).say 0x107 []
    [BitVec.ofNat 64 n, (y.pc - BitVec.ofNat 64 y.base) / 4, s.count]

/-- TAKEOVER (R244, R263): the failed control core stops, signals are held from now on, and the successor begins at its takeover
vector within 64 cycles, by its start or by an interrupt; with no candidate no launch starts any more, and CC3 reports it. -/
def execTakeover (s : State) : Outcome :=
  onDue s fun p s =>
    match p.ev with
    | .takeover n =>
      let s := s.machineCheck n
      let s := { s with ctl := { s.ctl with tko := true, failed := BitVec.ofNat 2 n } }
      match s.successor n with
      | some (m, stands) =>
        let (d, s) := ({ s with ctl := { s.ctl with noCandidate := false } }).draw
        let s := s.adopt n m
        let x := s.cc m
        if stands then
          s.setCC m { x with standby := false, active := true, stopped := false, machine := true, pc := vectorPc x.takePc
                             readyAt := s.clock + d % 65 }
        else s.setCC m { x.setReg 0x344 (x.reg 0x344 ||| 0x10000) with readyAt := min x.readyAt (s.clock + d % 65) }
      | none => ({ s with ctl := { s.ctl with noCandidate := true } }).say 0x100 [] [BitVec.ofNat 64 n]
    | _ => s

/-- STANDBY_ERROR (R263): an error of a control core that stands by sets its out-of-service bit. -/
def execStandbyError (s : State) : Outcome :=
  onInput s fun _ s =>
    match (List.range 4).find? fun m => (s.cc m).standby with
    | some m => { s with ctl := { s.ctl with oos := setBit s.ctl.oos m true } }
    | none => s

/-! ### Callote's stops (R11, R210, R245) -/

/-- What Callote holds stopped goes on, and the holds of its stops end. -/
def State.endStops (s : State) : State :=
  let cores := s.cores.map fun q => (q.1, { q.2 with ctxs := q.2.ctxs.map fun y => (y.1, { y.2 with debugStop := false }) })
  let ccs := s.ctl.ccs.map fun q => (q.1, { q.2 with debugStop := false })
  s.gs.holds.foldl (fun s _ => s.noticeHold 4 none 0) { s with cores := cores, ctl := { s.ctl with ccs := ccs } }

/-! ### Arrivals (R253) -/

/-- An arrival's enqueue: of a launch that is loaded and not enqueued yet; journalled, then kicked. -/
def State.arrive (s : State) (l : BitVec 64) : State × BitVec 64 :=
  let x := s.launch l
  if x.state = 1 ∧ !x.enqueued then s.enqueue l x.queue (s.queue x.queue).prio none else (s, 0)

/-- FABRIC_ENQUEUE (R253); while CC3 reboots the arrival is refused (R309). -/
def execFabricEnqueue (s : State) : Outcome :=
  onInput s fun x s =>
    match x with
    | .fabricEnqueue l => if s.clock < s.out.downTill then s else (s.arrive l).1
    | _ => s

end Sys2Proof.Machine
end

