-- ==== Sys2Proof/Machine/Outside.lean ====
section
/-! DEFINITION. Boot (R293, R294), the management port (R299 to R301), attestation (R298), 1588 time (R302), fabric images (R303),
group formation (R196, R208), power and temperature (R308), the reboot of CC3 (R309). -/

namespace Sys2Proof.Machine

/-! ### Boot (R293, R294) -/

/-- Bytes of the boot flash. -/
def State.flashBytes (s : State) (off n : Nat) : List Byte := (List.range n).map fun i => Memory.read s.out.flash (off + i)

/-- A firmware copy in the flash: its bytes, up to the end of the signature block after the relocation table; none if it is not an
image or runs past its 16 MiB (R294, R305). -/
def State.flashCopy (s : State) (off : Nat) : Option (List Byte) :=
  let h := s.flashBytes off 64
  let n := fileN h 0x18 8 + 16 * fileN h 0x0C 4 + 72
  if fileN h 0 4 = 0x4E46444E ∧ n ≤ 2 ^ 24 then some (s.flashBytes off n) else none

/-- The minimum firmware version: the blown bits of minfw (R295). -/
def State.minFirmware (s : State) : Nat :=
  (List.range 8).countP fun i => (Memory.read s.out.fuses 0x141).getLsbD i

/-- A refusal names the image, by its digest, and the failed check with what its rule reports (R296). -/
def State.sayRefusal (s : State) (kind : Nat) (image : List Byte) (words : List (BitVec 64)) : State :=
  s.say kind (sha512 (imageBody image)) words

/-- Firmware that a copy holds, verified and not too old (R293); a copy that fails is refused by number, 0 for A and 1 for B. -/
def State.firmwareAt (s : State) (n : Nat) : State × Option (Image × List Sect) :=
  let no := fun (bs : List Byte) (e : ImageError) => (s.sayRefusal 0x106 bs (BitVec.ofNat 64 n :: e.words), none)
  match s.flashCopy (n * 0x1000000) with
  | none => no [] .header
  | some bs =>
    match s.readImage true bs with
    | .ok (im, xs) => if im.version.toNat < s.minFirmware then no bs .version else (s, some (im, xs))
    | .error e => no bs e

/-- The firmware of copy A, else of copy B (R293). -/
def State.firmware (s : State) : State × Option (Image × List Sect) :=
  match s.firmwareAt 0 with
  | (s, some x) => (s, some x)
  | (s, none) => s.firmwareAt 1

/-- The standing entry of the boot count record: its place and count (R294). -/
def State.bootEntry (s : State) : Option (Nat × Nat) :=
  (List.range 4096).foldl (fun best i =>
    let b := s.flashBytes (0x2000000 + 16 * i) 16
    let n := fileN b 0 8
    if n + fileN b 8 8 ≠ 2 ^ 64 - 1 then best
    else
      match best with
      | some (_, m) => if n ≤ m then best else some (i, n)
      | none => some (i, n)) none

/-- CC3 writes the next entry of the boot count record (R294); with no standing entry it writes count 1 to the first. -/
def State.countBoot (s : State) : State :=
  let (i, n) := match s.bootEntry with | some (i, n) => ((i + 1) % 4096, (n + 1) % 2 ^ 64) | none => (0, 1)
  let b := leBytes 8 n ++ leBytes 8 (2 ^ 64 - 1 - n)
  { s with out := { s.out with epoch := BitVec.ofNat 24 n, flash := Memory.writeAll s.out.flash (cellsOfBytes (0x2000000 + 16 * i) b) } }

/-- The package is a group of its own (R196), in which no port has an Ld (R202). -/
def State.ownGroup (s : State) : State :=
  { s with
    ports := s.ports.map fun q => (q.1, { q.2 with ld := 0 })
    gs := { s.gs with leader := true, hLat := 64, members := [], far := [], offset := 0, due := 0 } }

/-- A control core whose instruction memory has been loaded starts from clock `t` on; CC2 stands by (R246). -/
def State.startControl (s : State) (t n : Nat) : State :=
  if (s.cc n).imemSize = 0 then s
  else
    let s := s.readyControl n (n != 2)
    if n = 2 then s else s.setCC n { s.cc n with stopped := false, readyAt := t }

/-- The firmware's data and control code are loaded, and the control cores start (R293, R305). -/
def State.loadFirmware (s : State) (im : Image) (xs : List Sect) : State :=
  let s := (((List.range 4).foldl State.emptyControl s).loadData xs).loadCodes (List.range 4) xs im.kernels
  let s := (List.range 4).foldl (fun s n => s.startControl (s.clock + 1) n) s
  (List.range 4).foldl (fun s _ => s.record 1 im.key im.digest 0) s

/-- The ROM derives the device's private key from devseed (R298), and the control complex reserves the staging area in the stacks
(R303). -/
def State.prepare (s : State) : State :=
  let (d, s) := s.draw
  { s with out := { s.out with
      device := leBytes 32 (Config.deviceKey (s.fuseBytes 0x14A 32)).toNat
      area := pageOf (lvlBase 3) + d % (262145 - min Config.stagingFrames 262144) } }

/-- The spares that fail the self-test at boot (R289, R293). -/
def State.spareTest (s : State) : State :=
  ((List.range 32).filter Config.faultySpare).foldl (fun s i =>
    { s with ctl := { s.ctl with spare := mput s.ctl.spare i { s.spareOf i with sfail := true } } }) s

/-- Spares and cores are tested at boot; cores that fail are retired and mapped to spares (R288, R293). -/
def State.bootTest (s : State) : State :=
  ((List.range 512).filter fun c => (s.core c).testFails || Config.faulty c).foldl (fun s c =>
    (s.setCore c { s.core c with retired := true, oos := true, testFails := false }).substitute c) s.spareTest

/-- Ports 0 to 47 train: which links lock is the outside's (R293). -/
def State.trainLinks (s : State) : State :=
  (List.range 48).foldl (fun s p =>
    let (d, s) := s.draw
    { s with ports := mput s.ports p { s.port p with locked := decide (d % 2 = 0) } }) s

/-- BOOT (R293, R298): copy A, else copy B; with neither the package stays in recovery mode. -/
def execBoot (s : State) : Outcome :=
  onInput s fun _ s =>
    if s.out.stage ≠ 0 then s
    else
      match s.countBoot.prepare.firmware with
      | (s, none) => { s with out := { s.out with stage := 1 } }
      | (s, some (im, xs)) =>
        let s := ((s.loadFirmware im xs).bootTest).trainLinks.ownGroup
        let s := { s with count := 0, out := { s.out with stage := 2, fwver := im.version } }
        s.say 0x101 [] []

/-- CC3 loads its code again from its reverified firmware and starts at clock `t`; with no copy that verifies it stays in the ROM's
recovery mode, after a trip in that of the trip (R293, R308, R309, log 52). -/
def State.reloadCC3 (s : State) (t : Nat) : State :=
  match s.firmware with
  | (s, some (im, xs)) =>
    (((s.emptyControl 3).loadCodes [3] xs im.kernels).startControl t 3) |> fun s => { s with out := { s.out with fwver := im.version } }
  | (s, none) => (s.setCC 3 { s.cc 3 with stopped := true }) |> fun s => { s with out := { s.out with stage := if s.out.stage = 3 then 3 else 1 } }

/-- CC3_REBOOT (R309): the management port is down for at most 2 ms, so that nothing enters or leaves by it, Callote's session ends with what
it waits for, and CC3 starts again from its reverified firmware. -/
def execCc3Reboot (s : State) : Outcome :=
  let s := { s with turn := .idle, cause := .none }
  let (d, s) := s.draw
  let till := s.clock + 1 + d % 1700001
  let s := { s with out := { s.out with downTill := till } }.reloadCC3 till
  .next ({ s with out := { s.out with
    session := false, breaks := [], watches := [], passed := [], steps := [], till := none
    delays := s.out.delays.filter fun d => d.launch.isSome } }.endStops)

/-! ### Power (R308) -/

/-- The thermal state after a reading: 0 normal, 1 warn, 2 emergency, 3 trip (R308). -/
def thermalState (old : Nat) (tj : Int) : Nat :=
  if old = 3 ∨ 115 ≤ tj then 3
  else if 105 ≤ tj ∨ (old = 2 ∧ 100 ≤ tj) then 2
  else if 95 ≤ tj then 1
  else 0

/-- At a trip compute dies and stacks are powered down: every context is lost (R308). -/
def State.trip (s : State) : State :=
  { s with
    cores := [], engines := [], claims := [], banks := []
    agenda := s.agenda.filter fun p =>
      match p.ev with | .launchDone _ | .release | .takeover _ | .arrival .. => true | _ => false
    mem := { s.mem with gallery := Store.zero, hbm := Store.zero, carrels := [] }
    out := { s.out with stage := 3 } }

/-- THERMAL_READ (R308): the state follows the hottest sensor and is reported; an emergency begins its periods of holds. -/
def execThermalRead (s : State) : Outcome :=
  onInput s fun x s =>
    match x with
    | .thermalRead tj =>
      let old := s.out.thermal
      let new := thermalState old tj
      let s := { s with out := { s.out with tj := tj, thermal := new } }
      let s := if new ≠ old ∧ new ≠ 0 then s.say 0x102 [] [BitVec.ofNat 64 new] else s
      if new = old then s
      else if new = 3 then s.trip
      else if new = 2 ∧ !(s.agenda.any fun p => p.ev == .thermalPeriod) then s.post s.clock true 0 0 .thermalPeriod
      else s
    | _ => s

/-- EMERGENCY_HOLD (R308): a hold of 8,192 clocks at the start of each period of 16,384, as long as the emergency lasts. -/
def execEmergencyHold (s : State) : Outcome :=
  onDue s fun _ s =>
    if s.out.thermal = 2 then (s.requestHold 5 (some 8192)).post (s.clock + 16384) true 0 0 .thermalPeriod else s

/-- PTP_MESSAGE (R302): the time of day runs on from it; while CC3 reboots the port is down (R309). -/
def execPtpMessage (s : State) : Outcome :=
  onInput s fun x s =>
    match x with
    | .ptpMessage t => if s.clock < s.out.downTill then s else { s with out := { s.out with time := t, timeAt := s.clock } }
    | _ => s

/-! ### The management port (R299 to R301) -/

/-- The answer to a message: its result and the reply's body after it. -/
abbrev Answer := Nat × List Byte

/-- Result 4, malformed. -/
def malformed : Answer := (4, [])
/-- Result 5, refused, with the code that names the refusal that the rule at fault reports (R301). -/
def refusal (why : List (BitVec 64)) : Answer := (5, leBytes 4 (Config.refusalCode why).toNat)
/-- Result 6, busy. -/
def busyAnswer : Answer := (6, [])

/-- The reply of a message type, to the request's source (R301). -/
def replyOf (type : Nat) (m : Msg) (a : Answer) : Output :=
  ⟨type % 0x8000 + 0x8000, m.key, m.counter, leBytes 4 a.1 ++ a.2, [], m.source, (0, 0)⟩

/-- The header and body of a message, which its signature covers (R299, R300). -/
def signedBytes (m : Msg) (type : Nat) : List Byte :=
  leBytes 2 type ++ [m.key, 0] ++ leBytes 4 m.body.length ++ leBytes 8 m.counter.toNat ++ m.body

/-- What a message does: the state after it and its answer. -/
abbrev Handler := State → Msg → State × Answer

/-- Whether the management port is up: the package has booted or is in recovery mode, and CC3 is not rebooting (R293, R309). -/
def State.portUp (s : State) : Bool := s.out.stage != 0 && decide (s.out.downTill ≤ s.clock)

/-- Whether CC3 answers that it is busy (R301). -/
def State.cc3Busy (s : State) : Bool := Config.busy s.out.out.length

/-- An unsigned message (R299, R301): it carries key 0xFF and is acted on each time. In recovery mode only firmware is accepted
(R293). -/
def unsignedMsg (type : Nat) (firmware : Bool) (h : Handler) (s : State) (m : Msg) : State :=
  if !s.portUp then s
  else
    let (s, a) :=
      if m.key ≠ 0xFF#8 ∨ 1400 < m.body.length then (s, malformed)
      else if s.cc3Busy then (s, busyAnswer)
      else if (s.out.stage == 1) != firmware then (s, refusal [BitVec.ofNat 64 (0x1000 + type)])
      else h s m
    s.send (replyOf type m a)

/-- A signed message (R299, R301): the key, the signature and the counter are checked; the last accepted counter of a key has its
reply sent again. -/
def signedMsg (type : Nat) (h : Handler) (s : State) (m : Msg) : State :=
  if !s.portUp then s
  else
    let k := m.key.toNat
    let no := fun (r : Nat) => s.send (replyOf type m (r, []))
    let seq := m.counter.extractLsb' 0 40
    let hash := s.fuseBytes (0x40 + 64 * k) 64
    if m.key = 0xFF#8 ∨ 1400 < m.body.length then s.send (replyOf type m malformed)
    else if s.cc3Busy then s.send (replyOf type m busyAnswer)
    else if s.out.stage = 1 then s.send (replyOf type m (refusal [BitVec.ofNat 64 (0x1000 + type)]))
    else if !s.ownerKey k then no 3
    else if sha512 m.pub ≠ hash ∨ !edVerify m.pub (signedBytes m type) m.sig then no 1
    else if m.counter.extractLsb' 40 24 ≠ s.out.epoch then no 2
    else
      match s.out.replies.find? fun q => q.1 == k with
      | some (_, o) =>
        if seq = mget s.out.last 0 k then s.send { o with dst := m.source }
        else if seq.toNat < (mget s.out.last 0 k).toNat then no 2
        else
          let (s, a) := h s m
          let o := replyOf type m a
          { s with out := { s.out with last := mput s.out.last k seq, replies := mput s.out.replies k o } }.send o
      | none =>
        if seq = 0 then no 2
        else
          let (s, a) := h s m
          let o := replyOf type m a
          { s with out := { s.out with last := mput s.out.last k seq, replies := mput s.out.replies k o } }.send o

/-- The package's serial number (R295). -/
def State.serial (s : State) : List Byte := s.fuseBytes 0x142 8

/-- The members of the group. -/
def State.memberCount (s : State) : Nat := max 1 s.gs.members.length

/-- Message 0x0001. -/
def statusReadH : Handler := fun s m =>
  if m.body ≠ [] then (s, malformed)
  else (s, 0, s.serial ++ leBytes 4 s.out.epoch.toNat ++ leBytes 2 s.out.fwver.toNat ++ leBytes 1 (min 2 s.out.thermal) ++
    leBytes 1 s.memberCount ++ leBytes 2 s.gs.hLat ++ leBytes 8 s.now)

/-- Bytes of a chunk go to a staging area. -/
def stage (m : SMap Byte) (off : Nat) (bs : List Byte) : SMap Byte := bs.zipIdx.foldl (fun m b => mput m (off + b.2) b.1) m

/-- The first `n` bytes of a staging area, if all have arrived. -/
def staged (m : SMap Byte) (n : Nat) : Option (List Byte) :=
  if n ≤ m.length ∧ (List.range n).all fun i => mhas m i then some ((List.range n).map fun i => mget m 0 i) else none

/-- Message 0x0002. -/
def imageChunkH : Handler := fun s m =>
  if m.body.length < 9 then (s, malformed)
  else ({ s with out := { s.out with staging := stage s.out.staging (fileN m.body 0 8) (m.body.drop 8) } }, 0, [])

/-- Message 0x0003: the image is verified and loaded when every byte has arrived. -/
def imageCommitH : Handler := fun s m =>
  if m.body.length ≠ 8 then (s, malformed)
  else
    match staged s.out.staging (fileN m.body 0 8) with
    | none => (s, refusal [0])
    | some bs =>
      match s.loadJob bs with
      | .ok (s, im) => ({ s with out := { s.out with staging := [] } }, 0, im.digest)
      | .error e => (s.sayRefusal 0x103 bs e.words, refusal e.words)

/-- Message 0x0010: parameter words are replaced (R9) and the launch is enqueued (R253). -/
def launchRequestH : Handler := fun s m =>
  let n := (m.body.length - 8) / 9
  if m.body.length < 8 ∨ m.body.length ≠ 8 + 9 * n ∨ 64 < n ∨ (List.range n).any fun i => decide (63 < fileN m.body (8 + 9 * i) 1) then
    (s, malformed)
  else
    let l := BitVec.ofNat 64 (fileN m.body 0 8)
    let (s', seq) := s.arrive l
    if seq = 0 then (s, refusal [0x10])
    else
      let x := s'.launch l
      let ps := (List.range n).foldl (fun p i =>
        mput p (fileN m.body (8 + 9 * i) 1) (BitVec.ofNat 64 (fileN m.body (9 + 9 * i) 8))) x.params
      (s'.setLaunch l { x with params := ps }, 0, leBytes 8 seq.toNat)

/-- Message 0x0011. -/
def cancelH : Handler := fun s m =>
  if m.body.length ≠ 9 ∨ 3 < fileN m.body 8 1 then (s, malformed)
  else
    let (s, n) := s.cancel (fileN m.body 8 1) (BitVec.ofNat 64 (fileN m.body 0 8))
    (s, 0, leBytes 4 n)

/-- Whether a timed launch runs on the package. -/
def State.timedRuns (s : State) : Bool := s.ctl.launches.any fun q => q.2.timed && q.2.state == 2

/-- Message 0x0020 (R196, R202, R208): Ld of every locked link, 0 of one that leads out of the group, the group's longest shortest path, of at
most n - 1 links, its largest latency, the leader and the largest count are the outside's; the count does not go backwards; a group whose H
would exceed 1,536 is refused. -/
def groupFormationH : Handler := fun s m =>
  let n := fileN m.body 0 2
  if m.body.length ≠ 2 + 8 * n ∨ n = 0 then (s, malformed)
  else if s.timedRuns ∨ (m.body.drop 2).take 8 ≠ s.serial then (s, refusal [0x20])
  else
    let members := (List.range n).map fun i => BitVec.ofNat 64 (fileN m.body (2 + 8 * i) 8)
    let measured := s.ports.foldl (fun (acc : State × Nat) q =>
      if q.2.locked then
        let (d, s) := acc.1.draw
        ({ s with ports := mput s.ports q.1 { s.port q.1 with ld := if n = 1 then 0 else BitVec.ofNat 12 d } }, max acc.2 (d % 4096))
      else acc) (s, 0)
    let (more, s1) := measured.1.draw
    let (dist, s1) := s1.draw
    let (lead, s1) := s1.draw
    let (ahead, s1) := s1.draw
    let h := if n = 1 then 64 else 64 + (1 + dist % (n - 1)) * (max measured.2 (more % 4096) + 12)
    if 1536 < h then (s, refusal [0x21])
    else
      let i := lead % n
      let gs := { s1.gs with leader := decide (i = 0), hLat := h, members := members, far := [], offset := 0, due := 0, desync := false }
      let s1 := { s1 with gs := gs, count := if n = 1 then s1.count else BitVec.ofNat 64 (s1.now + ahead % (2 ^ 64 - s1.now)) }
      (s1, 0, leBytes 8 ((members[i]?).getD 0).toNat ++ leBytes 2 h ++ leBytes 8 s1.now)

/-- Message 0x0021 (R196). -/
def groupDissolveH : Handler := fun s m => if m.body ≠ [] then (s, malformed) else (s.ownGroup, 0, [])

/-- Message 0x0030: fuses are blown, one time each (R295). -/
def fuseProgrammingH : Handler := fun s m =>
  let off := fileN m.body 0 2
  let n := fileN m.body 2 2
  if m.body.length ≠ 4 + n then (s, malformed)
  else if 362 < off + n then (s, refusal [0x30])
  else
    let cells := (m.body.drop 4).zipIdx.map fun b => (off + b.2, Memory.read s.out.fuses (off + b.2) ||| b.1)
    ({ s with out := { s.out with fuses := Memory.writeAll s.out.fuses cells } }, 0, [])

/-- The attestation report (R298). -/
def State.report (s : State) (nonce : List Byte) (q : BitVec 8) : List Byte :=
  let y := s.queue q
  [0x5A#8, 0x47, 0x39, 0x41, 0x54, 0x54, 0x53, 0x54] ++ s.serial ++ nonce ++ leBytes 4 q.toNat ++ leBytes 4 y.chained.toNat ++
    y.hash ++ s.out.measure ++ leBytes 8 s.out.records.length

/-- Message 0x0050 (R298). -/
def attestationH : Handler := fun s m =>
  if m.body.length ≠ 33 then (s, malformed)
  else
    let r := s.report (m.body.take 32) (BitVec.ofNat 8 (fileN m.body 32 1))
    (s, 0, r ++ edSign s.out.device r)

/-- Message 0x0051: the certificate of the device's public key (R298). -/
def certificateReadH : Handler := fun s m =>
  if m.body ≠ [] then (s, malformed) else (s, 0, Config.certificate (edPublic s.out.device))

/-- Message 0x0060. -/
def firmwareChunkH : Handler := fun s m =>
  if m.body.length < 9 then (s, malformed)
  else ({ s with out := { s.out with fwStaging := stage s.out.fwStaging (fileN m.body 0 8) (m.body.drop 8) } }, 0, [])

/-- Message 0x0061: the firmware is verified and written to copy B (R293, R301). -/
def firmwareCommitH : Handler := fun s m =>
  if m.body.length ≠ 8 then (s, malformed)
  else
    match staged s.out.fwStaging (fileN m.body 0 8) with
    | none => (s, refusal [0])
    | some bs =>
      if 2 ^ 24 < bs.length then (s, refusal [12])
      else
        match s.readImage true bs with
        | .ok (im, _) =>
          ({ s with out := { s.out with fwStaging := [], flash := Memory.writeAll s.out.flash (cellsOfBytes 0x1000000 bs) } }, 0, im.digest)
        | .error e => (s.sayRefusal 0x103 bs e.words, refusal e.words)

/-- The message types (R301). -/
def messageTypes : List Nat := [0x0001, 0x0002, 0x0003, 0x0010, 0x0011, 0x0020, 0x0021, 0x0030, 0x0040, 0x0050, 0x0051, 0x0060, 0x0061]

/-- A message of any other type is answered with result 4 and changes nothing (R301). -/
def otherMsg (type : Nat) (s : State) (m : Msg) : State :=
  if !s.portUp || messageTypes.contains type then s else s.send (replyOf type m malformed)

/-- STATUS_READ, and the message of a type that has no step of its own (R301). -/
def execStatusRead (s : State) : Outcome :=
  onInput s fun x s =>
    match x with
    | .statusRead m => unsignedMsg 0x0001 false statusReadH s m
    | .otherMessage t m => otherMsg t.toNat s m
    | _ => s
/-- IMAGE_CHUNK (R301). -/
def execImageChunk (s : State) : Outcome :=
  onInput s fun x s => match x with | .imageChunk m => unsignedMsg 0x0002 false imageChunkH s m | _ => s
/-- IMAGE_COMMIT (R296, R301, R305). -/
def execImageCommit (s : State) : Outcome :=
  onInput s fun x s => match x with | .imageCommit m => unsignedMsg 0x0003 false imageCommitH s m | _ => s
/-- LAUNCH_REQUEST (R253, R301). -/
def execLaunchRequest (s : State) : Outcome :=
  onInput s fun x s => match x with | .launchRequest m => signedMsg 0x0010 launchRequestH s m | _ => s
/-- CANCEL (R261, R301). -/
def execCancel (s : State) : Outcome :=
  onInput s fun x s => match x with | .cancel m => signedMsg 0x0011 cancelH s m | _ => s
/-- GROUP_FORMATION (R196, R208, R301). -/
def execGroupFormation (s : State) : Outcome :=
  onInput s fun x s => match x with | .groupFormation m => signedMsg 0x0020 groupFormationH s m | _ => s
/-- GROUP_DISSOLVE (R196, R301). -/
def execGroupDissolve (s : State) : Outcome :=
  onInput s fun x s => match x with | .groupDissolve m => signedMsg 0x0021 groupDissolveH s m | _ => s
/-- FUSE_PROGRAMMING (R295, R301). -/
def execFuseProgramming (s : State) : Outcome :=
  onInput s fun x s => match x with | .fuseProgramming m => signedMsg 0x0030 fuseProgrammingH s m | _ => s
/-- ATTESTATION (R298, R301). -/
def execAttestation (s : State) : Outcome :=
  onInput s fun x s => match x with | .attestation m => unsignedMsg 0x0050 false attestationH s m | _ => s
/-- CERTIFICATE_READ (R298, R301). -/
def execCertificateRead (s : State) : Outcome :=
  onInput s fun x s => match x with | .certificateRead m => unsignedMsg 0x0051 false certificateReadH s m | _ => s
/-- FIRMWARE_CHUNK (R301). -/
def execFirmwareChunk (s : State) : Outcome :=
  onInput s fun x s => match x with | .firmwareChunk m => unsignedMsg 0x0060 true firmwareChunkH s m | _ => s
/-- FIRMWARE_COMMIT (R293, R296, R301). -/
def execFirmwareCommit (s : State) : Outcome :=
  onInput s fun x s => match x with | .firmwareCommit m => unsignedMsg 0x0061 true firmwareCommitH s m | _ => s

/-- An image that CC3 has asked for through a Dratrix port arrives in the staging area of the stacks, where it is verified, and is then
loaded as from the management port (R303); one that the area does not hold is refused. -/
def State.fetched (s : State) (p : Nat) (bs : List Byte) : State :=
  let s := s.say 0x104 [] [BitVec.ofNat 64 p]
  if Config.stagingFrames * 0x200000 < bs.length then s.sayRefusal 0x103 bs [12]
  else
    let cells := cellsOfBytes (s.out.area * 0x200000) bs
    let s := s.putCells 3 0 cells (fullParts cells)
    match s.loadJob bs with
    | .ok (s, _) => s
    | .error e => s.sayRefusal 0x103 bs e.words

/-- FABRIC_IMAGE_FETCH (R303): after boot, while CC3 runs, through a port that no running launch has bound. -/
def execFabricImageFetch (s : State) : Outcome :=
  onInput s fun x s =>
    match x with
    | .fabricImageFetch p bs => if s.out.stage ≠ 2 ∨ s.clock < s.out.downTill ∨ (s.port p.toNat).bound.isSome then s else s.fetched p.toNat bs
    | _ => s

/-- Whether Callote's commands act (R299, R309): the package has booted, CC3 runs, and an accepted line has opened the session. -/
def State.calloteOpen (s : State) : Bool := decide (2 ≤ s.out.stage) && s.portUp && s.out.session

end Sys2Proof.Machine
end

