-- ==== Sys2Proof/Machine/Callote.lean ====
section
/-! DEFINITION. Callote, the debugger (R10 to R12, R68, R91, R194, R208, R222, R245, R301, R319): its commands and its command
lines. -/

namespace Sys2Proof.Machine

/-! ### What Callote prints -/

/-- Kinds of what Callote prints: a stop, an exchange, an image, a launch, an item, a refusal. -/
def sayStop : Nat := 0x120
def sayXch : Nat := 0x110
def sayImage : Nat := 0x130
def sayLaunch : Nat := 0x131
def sayItem : Nat := 0x132
def sayRefused : Nat := 0x133

/-- The words of a bus value: its tag, then its bits. -/
def LVal.shown : LVal → List (BitVec 64)
  | .s x => [x.tag.zeroExtend 64, x.val]
  | .v x => x.tag.zeroExtend 64 :: (List.range 64).map fun i => x.bits.extractLsb' (64 * i) 64

/-- A port's status word (R206). -/
def Port.word (x : Port) : BitVec 64 :=
  x.voids ++ x.chk ++ x.misplaced ++ 0#9 ++ BitVec.ofBool x.vtaken ++ BitVec.ofBool x.bound.isSome ++ x.core ++ x.ld

/-- A core's virtual address as Callote reads memory: the carrel by offset, the other levels through the translation of the job of
context 0's task, or by the address itself where no page is mapped. -/
def State.shownByte (s : State) (core a : Nat) : Byte :=
  match lvlOf a with
  | none => 0
  | some 1 => s.levelByte 1 core a
  | some l => s.levelByte l core ((s.physOf (jobOf (s.ctx core 0).launch) a).getD a)

/-- The code of a format. -/
def formatCode : MemFormat → BitVec 64
  | .f32 => 0
  | .x32 => 1
  | .i32 => 2

/-- The words of an item that print shows (R12, R173, R198, R206, R224, R245, R289, R319). Collisions are counted by output port (R173), and no
rule says what those of a launch are (R14): `print launch` shows what the ports have counted since they were cleared (DESIGN CHOICE, log 52). -/
def State.shown (s : State) : PrintItem → List (BitVec 64)
  | .source c k src =>
    let e := envAt s c.toNat k.toNat 0
    (e.source (decide (src.toNat < 0x40) || decide (0x80 ≤ src.toNat ∧ src.toNat < 0xC0) ||
      decide (0x100 ≤ src.toNat) && latchClass ((src.toNat - 0x100) / 8) (src.toNat % 8) != some false) src).shown
  | .operand c k u p =>
    let r := (s.ctx c.toNat k.toNat).regs
    let f := fuOf u.toNat
    match portClass f p.toNat with
    | some true => (LVal.s (r.rdSP f p.toNat)).shown
    | some false => (LVal.v (r.rdVP f p.toNat)).shown
    | none => []
  | .ccReg n r => [(s.cc n.toNat).rx r.toNat]
  | .budg c k => [(s.ctx c.toNat k.toNat).regs.budget]
  | .xcnt c k => [(s.ctx c.toNat k.toNat).regs.xcnt]
  | .flags c k => [(s.ctx c.toNat k.toNat).regs.flags.zeroExtend 64]
  | .ctx c k =>
    let y := s.ctx c.toNat k.toNat
    [y.statusWord k.toNat, y.pc.zeroExtend 64, BitVec.ofNat 64 y.issued]
  | .arr c k => (List.range 8).map fun i => (mget (s.ctx c.toNat k.toNat).arr Arrival.zero i).word
  | .ecnt c k => (List.range 8).map fun i => mget (s.ctx c.toNat k.toNat).ecnt 0 i
  | .mx c =>
    let a := (s.core c.toNat).arr
    (a.anchor.zeroExtend 64 :: (List.range 5).flatMap fun i =>
      let p := mget a.pipes Pipe.zero i
      [p.live.zeroExtend 64, p.progress.zeroExtend 64]) ++ (List.range 4).map fun i => (mget a.resid 0 i).zeroExtend 64
  | .mem c a n f =>
    formatCode f :: (List.range n).map fun i => BitVec.ofNat 64 (wordAt (s.shownByte c.toNat) (a.toNat + 4 * i) 4)
  | .gstat => [s.groupWord]
  | .port p => [(s.port p.toNat).word]
  | .net b r p => [mget s.netctr 0 (netKey b r p)]
  | .spare r => [s.spareWord r.toNat]
  | .launch l => [l, s.colo l 0]
  | .lastLaunch =>
    let n := s.ctl.launches.foldl (fun m q => max m q.1) 0
    let x := s.launch (BitVec.ofNat 64 n)
    [BitVec.ofNat 64 n, x.word, BitVec.ofNat 64 x.holdCycles, BitVec.ofNat 64 s.collisions]
  | .colo l => (List.range 8).map fun i => BitVec.ofNat 64 (s.ccRead ((s.launch l).colophon.toNat + 8 * i) 8)
  | .journal =>
    s.ctl.zjtail :: (List.range (s.ctl.zjtail.toNat + 1 - s.ctl.zjhead.toNat)).flatMap fun i =>
      (List.range 4).map fun j => BitVec.ofNat 64 (s.ccRead (journalAt (s.ctl.zjhead.toNat + i) + 8 * j) 8)
  | .kick => (List.range 64).flatMap fun i => [s.ctl.kick.extractLsb' (64 * i) 64, s.ctl.rekick.extractLsb' (64 * i) 64]
  | .tko => [s.ctl.tkoWord]
  | .conc q => [(s.queue q).chained.zeroExtend 64, (s.queue q).launch, (s.queue q).seq.zeroExtend 64 + 1]
  | .xlat j a =>
    let e := s.pte j (pageOf a.toNat)
    let p := (e.extractLsb' 21 27).toNat * 0x200000
    [e, BitVec.ofNat 64 (p / 0x200000), BitVec.ofNat 64 (p / 2 ^ 36 % 8), BitVec.ofNat 64 (p % 2 ^ 36 / 4096 % 160)]
  | .stq c k => [BitVec.ofNat 64 (s.agenda.countP fun p => p.core == c.toNat && p.ctx == k.toNat && p.lvl == 3 && p.wr)]
  | .eng c k =>
    [BitVec.ofNat 64 (s.agenda.countP fun p => p.core == c.toNat && p.ctx == k.toNat &&
      match p.ev with | .engAcquire _ => true | _ => false), (s.ctx c.toNat k.toNat).engineWord]

/-- The place of a slot: its mark, blank flag and first four words (R10). -/
def State.shownSlot (s : State) (core a : Nat) : List (BitVec 64) :=
  match lvlOf a with
  | none => []
  | some l =>
    let pa := if l = 1 then a else (s.physOf (jobOf (s.ctx core 0).launch) a).getD a
    let x := s.mem.level l core
    [BitVec.ofNat 64 a, (x.mark pa).zeroExtend 64, if s.blankAt ⟨l, core, a, pa⟩ then 1 else 0] ++
      (List.range 4).map fun i => BitVec.ofNat 64 (wordAt (s.shownByte core) (a + 4 * i) 4)

/-! ### The commands, each as what it does to the state -/

/-- `load` (R10, R245): the image is verified and loaded; a control kernel goes to the active core and to the one that stands by. -/
def doLoad (bs : List Byte) (active standby : Option (BitVec 2)) (s : State) : State :=
  match s.loadJob bs with
  | .error e => s.sayRefusal sayRefused bs e.words
  | .ok (s, im) =>
    let s := match im.kernels.find? fun k => k.control with
      | some k =>
        let put := fun (s : State) (n : Option (BitVec 2)) (a : Bool) => match n with | some n => s.loadControl n.toNat k a | none => s
        put (put s active true) standby false
      | none => s
    s.say sayImage im.digest [BitVec.ofNat 64 im.kernels.length]

/-- `launch` (R10, R245): a new launch of job 0, started if zlaunch takes it; it prints the identifier, zlaunch's code and T0.
The launch status table holds 4,096 (R248). -/
def doLaunch (r : LaunchReq) (s : State) : State :=
  match (s.out.images[r.image]?).bind fun im => im.kernels[r.kernel]? with
  | none => s.say sayRefused [] []
  | some k =>
    if !requestOk r k ∨ 4096 ≤ s.ctl.launches.length then s.say sayRefused [] []
    else
      let l := BitVec.ofNat 64 (s.ctl.launches.foldl (fun m q => max m q.1) 0 + 1)
      let (s, code) := (s.loadRequest l r k).zlaunch l 3
      s.say sayLaunch [] [l, code, BitVec.ofNat 64 (s.launch l).t0]

/-- `break` (R10, R245). -/
def doBreak (t : StopPoint) (s : State) : State := { s with out := { s.out with breaks := s.out.breaks ++ [t] } }

/-- `clear` (R10): every breakpoint before the bundle, or the instruction, of that number is removed. -/
def doClear (bundle : Bool) (n : Nat) (s : State) : State :=
  { s with out := { s.out with breaks := s.out.breaks.filter fun b =>
      match b with
      | .bundle _ _ b' _ => !(bundle && b'.toNat == n)
      | .instr _ i => bundle || i != n } }

/-- Everything that Callote has stopped goes on, past the breakpoints that it stands at and no other; the holds of the stops end (R11, R210). -/
def State.release (s : State) : State :=
  let standing := (s.cores.flatMap fun q => q.2.ctxs.filterMap fun y =>
      if y.2.debugStop then some (q.1, y.1, y.2.issued, y.2.pc.toNat) else none) ++
    s.ctl.ccs.filterMap fun q => if q.2.debugStop then some (512 + q.1, 0, q.2.done, q.2.pc.toNat) else none
  { s with out := { s.out with passed := standing } }.endStops

/-- `run`, `run to c` (R10, R245). -/
def doRun (till : Option Nat) (s : State) : State := { s.release with out := { s.release.out with till := till } }

/-- `step k` (R10): execution goes on until the context has issued k more bundles. -/
def doStep (core ctx k : Nat) (s : State) : State :=
  let n := (s.ctx core ctx).issued + k
  { s.release with out := { s.release.out with steps := s.release.out.steps ++ [(core, ctx, n)] } }

/-- `print` (R12): nothing changes but what has been printed. -/
def doPrint (item : PrintItem) (s : State) : State := s.say sayItem [] (s.shown item)
/-- `place` (R12). -/
def doPlace (core : Nat) (slots : List (BitVec 48)) (s : State) : State :=
  s.say sayItem [] (slots.flatMap fun a => s.shownSlot core a.toNat)
/-- `cycle` (R12). -/
def doCycle (s : State) : State := s.say sayItem [] [s.count, if s.gs.frozen then 1 else 0]
/-- `watch` (R194). -/
def doWatch (k : WatchKind) (s : State) : State := { s with out := { s.out with watches := s.out.watches ++ [k] } }
/-- `group` (R208): the members, H, whether this package leads, and the locked latencies. -/
def doGroup (s : State) : State :=
  s.say sayItem [] (s.gs.members ++ [BitVec.ofNat 64 s.gs.hLat, if s.gs.leader then 1 else 0] ++
    s.ports.filterMap fun q => if q.2.linked then some (q.2.ld.zeroExtend 64) else none)
/-- `lat` (R68). -/
def doLat (core : Nat) (s : State) : State :=
  s.say sayItem [] ((List.range 64).flatMap fun i =>
    let r := (s.core core).row i
    [BitVec.ofNat 64 r.lg, BitVec.ofNat 64 r.lx, BitVec.ofNat 64 r.fx])

/-- `enqueue … at c` (R245): CC3 will journal and kick at cycle c. -/
def doEnqueue (l : BitVec 64) (queue prio : BitVec 8) (dep : Option (BitVec 32)) (at_ : Nat) (s : State) : State :=
  s.post at_ false 0 0 (.arrival l queue prio dep)
/-- The enqueue, at its cycle: as an arrival at the management port (R253), which a reboot of CC3 refuses (R309). -/
def doArrival (l : BitVec 64) (queue prio : BitVec 8) (dep : Option (BitVec 32)) (s : State) : State :=
  if s.out.downTill ≤ s.clock ∧ (s.launch l).state = 1 ∧ !(s.launch l).enqueued then (s.enqueue l queue (prio.extractLsb' 0 3) dep).1 else s

/-- `start` (R245): an active core begins at `start`. -/
def doStart (n : Nat) (s : State) : State :=
  let x := s.cc n
  if x.active then s.setCC n { x with stopped := false, machine := true, pc := vectorPc x.startPc, readyAt := s.clock + 1 } else s

/-- `inject` (R194), and physical errors of the same kinds: a fret word that carries another expert, an error in a register or latch
(R282), in a bundle of instruction memory (R283), in a 16-byte part (R70), in the self-test (R287). -/
def doInject (k : Injection) (s : State) : State :=
  match k with
  | .tagMiss c x b ex => { s with out := { s.out with tagMiss := s.out.tagMiss ++ [(c.toNat, x.toNat, b.toNat, ex)] } }
  | .register c x src =>
    let y := s.ctx c.toNat x.toNat
    s.setCtx c.toNat x.toNat { y with regBad := y.regBad ++ [(envAt s c.toNat x.toNat 0).errorCode src] }
  | .bundleFetch c b => s.setCore c.toNat { s.core c.toNat with imemBad := (s.core c.toNat).imemBad ++ [b.toNat] }
  | .memoryPart c a =>
    match lvlOf a.toNat with
    | none => s
    | some l =>
      let x := s.mem.level l c.toNat
      { s with mem := s.mem.setLevel l c.toNat { x with poison := mput x.poison (a.toNat / 16) true } }
  | .selfTestFail c => s.setCore c.toNat { s.core c.toNat with testFails := true }

/-- `inject residue` (R194). -/
def doResidue (c k b : Nat) (s : State) : State := { s with out := { s.out with residue := s.out.residue ++ [(c, k, b)] } }
/-- `inject delay` (R222): refused for a timed context; it holds for the next launch. -/
def doDelay (c k b n : Nat) (s : State) : State :=
  if (s.ctx c k).timed then s.say sayRefused [] []
  else { s with out := { s.out with delays := s.out.delays ++ [⟨c, k, b, n, none⟩] } }
/-- `inject imem` (R245): the next fetch of the instruction, counted from the kernel's first (R241), fails. -/
def doImem (n i : Nat) (s : State) : State := s.setCC n { s.cc n with imemBad := (s.cc n).imemBad ++ [(s.cc n).base + 4 * i] }

/-- What a Callote command does. -/
def State.command (s : State) : Input → State
  | .calloteLoad bs a b => doLoad bs a b s
  | .calloteLaunch r => doLaunch r s
  | .calloteBreak t => doBreak t s
  | .calloteClear b n => doClear b n s
  | .calloteRun t => doRun t s
  | .calloteStep c k n => doStep c.toNat k.toNat n s
  | .callotePrint i => doPrint i s
  | .callotePlace c xs => doPlace c.toNat xs s
  | .calloteCycle => doCycle s
  | .calloteWatch k => doWatch k s
  | .calloteGroup => doGroup s
  | .calloteLat c => doLat c.toNat s
  | .calloteEnqueue l q p d n => doEnqueue l q p d n s
  | .calloteStart n => doStart n.toNat s
  | .calloteInject k => doInject k s
  | .injectDrift up => s.measured (s.gs.offset + if up then 16 else -16)
  | .injectResidue c k b => doResidue c.toNat k.toNat b.toNat s
  | .injectDelay c k b n => doDelay c.toNat k.toNat b.toNat n s
  | .injectImem n i => doImem n.toNat i s
  | _ => s

/-! ### Command lines (R319) -/

/-- The bytes of an ASCII text. -/
def ascii (t : String) : List Byte := t.toList.map fun c => BitVec.ofNat 8 c.toNat

/-- A token with the column of its first character, from 1. -/
abbrev Tok := Nat × List Byte

/-- Splits a line into tokens at blanks and tabs; a comma is one by itself. -/
def tokens (col : Nat) (cur : List Byte) : List Byte → List Tok
  | [] => if cur = [] then [] else [(col - cur.length, cur)]
  | b :: t =>
    if b = 0x20 ∨ b = 0x09 ∨ b = 0x2C then
      (if cur = [] then [] else [(col - cur.length, cur)]) ++ (if b = 0x2C then [(col, [b])] else []) ++ tokens (col + 1) [] t
    else tokens (col + 1) (cur ++ [b]) t

/-- The value of a digit in a base. -/
def digit (base : Nat) (b : Byte) : Option Nat :=
  let n := b.toNat
  let v := if 48 ≤ n ∧ n ≤ 57 then n - 48 else if 65 ≤ n ∧ n ≤ 70 then n - 55 else if 97 ≤ n ∧ n ≤ 102 then n - 87 else 99
  if v < base then some v else none

/-- Digits, with `_` between two of them (R311). -/
def digits (base acc : Nat) (sep : Bool) : List Byte → Option Nat
  | [] => if sep then none else some acc
  | b :: t =>
    if b = 0x5F then (if sep then none else digits base acc true t)
    else match digit base b with | some d => digits base (base * acc + d) false t | none => none

/-- An integer (R311). -/
def number (bs : List Byte) : Option Nat :=
  let go := fun base (t : List Byte) => (digits base 0 true t).bind fun n => if n < 2 ^ 64 then some n else none
  match bs with
  | 0x30#8 :: 0x78#8 :: t => go 16 t
  | 0x30#8 :: 0x62#8 :: t => go 2 t
  | t => go 10 t

/-- Decimal digits alone. -/
def decimals (bs : List Byte) : Option Nat := if bs.contains 0x5F#8 then none else digits 10 0 true bs

/-- The index in a name, after a prefix: decimal, without a leading zero (R313). -/
def after (pre : String) (bs : List Byte) : Option Nat :=
  let r := bs.drop (ascii pre).length
  if (ascii pre).isPrefixOf bs ∧ (r.head? ≠ some 0x30#8 ∨ r.length = 1) then decimals r else none

/-- The bundle or instruction number of `bNNN` or `iNNN`. -/
def tagNumber (pre : String) (bs : List Byte) : Option Nat :=
  if (ascii pre).isPrefixOf bs then decimals (bs.drop 1) else none

/-- The operators of a level of precedence, the tightest at 1 (R312). -/
def operatorsAt : Nat → List String
  | 1 => ["*", "/", "%"]
  | 2 => ["+", "-"]
  | 3 => ["<<", ">>"]
  | 4 => ["&"]
  | 5 => ["^"]
  | 6 => ["|"]
  | _ => []

/-- What an operator makes of two values, exactly (R312); a division by zero is refused, and so is a shift by a negative number. -/
def operate (op : String) (a b : Int) : Option Int :=
  match op with
  | "*" => some (a * b)
  | "/" => if b = 0 then none else some (a.tdiv b)
  | "%" => if b = 0 then none else some (a.tmod b)
  | "+" => some (a + b)
  | "-" => some (a - b)
  | "<<" => if b < 0 then none else some (a * 2 ^ b.toNat)
  | ">>" => if b < 0 then none else some (a / 2 ^ b.toNat)
  | "&" => some (Int.land a b)
  | "^" => some (Int.xor a b)
  | "|" => some (Int.lor a b)
  | _ => none

/-- A byte of a name or a number. -/
def isWord (b : Byte) : Bool := b == 0x5F || (digit 16 b).isSome || decide (65 ≤ b.toNat ∧ b.toNat ≤ 90 ∨ 97 ≤ b.toNat ∧ b.toNat ≤ 122)

/-- Reads an expression with the operators up to a level (R312), and what is left: of its first operand, or on from a value that has been
read. `names` are the symbols of the images. -/
def expr (names : List (List Byte × Int)) : Nat → Nat → Option Int → List Byte → Option (Int × List Byte)
  | 0, _, _, _ => none
  | n + 1, 0, _, bs =>
    match bs with
    | 0x2D#8 :: t => (expr names n 0 none t).map fun x => (-x.1, x.2)
    | 0x7E#8 :: t => (expr names n 0 none t).map fun x => (-x.1 - 1, x.2)
    | 0x28#8 :: t =>
      match expr names n 6 none t with
      | some (v, 0x29#8 :: r) => some (v, r)
      | _ => none
    | _ =>
      let (w, r) := bs.span isWord
      match number w, names.find? fun q => q.1 == w with
      | some v, _ => some (v, r)
      | none, some q => some (q.2, r)
      | none, none => none
  | n + 1, l + 1, none, bs =>
    match expr names n l none bs with
    | some (v, r) => expr names n (l + 1) (some v) r
    | none => none
  | n + 1, l + 1, some v, bs =>
    match (operatorsAt (l + 1)).find? fun op => (ascii op).isPrefixOf bs with
    | none => some (v, bs)
    | some op =>
      match expr names n l none (bs.drop (ascii op).length) with
      | some (w, r) => (operate op v w).bind fun x => expr names n (l + 1) (some x) r
      | none => none

/-- The value of an expression that takes all bytes (R312). -/
def exprAll (names : List (List Byte × Int)) (bs : List Byte) : Option Int :=
  match expr names (16 * bs.length + 16) 6 none bs with
  | some (v, []) => some v
  | _ => none

/-- The value of an expression for a word of 64 bits, signed or not (R312). -/
def value64 (names : List (List Byte × Int)) (bs : List Byte) : Option Nat :=
  match exprAll names bs with
  | some v => if -(2 ^ 63) ≤ v ∧ v < 2 ^ 64 then some (v % 2 ^ 64).toNat else none
  | none => none

/-- Whether a byte is one of an operator, or a bracket, of an expression: `closes` where an expression cannot begin with it. -/
def isOperator (closes : Bool) (b : Byte) : Bool := (ascii (if closes then "=+-*/%<>&^|)" else "=+-*/%<>&^|(~")).contains b

/-- The parts of an expression after a `=` are one token, whatever blanks stand between them. -/
def joined (ts : List Tok) : List Tok :=
  (ts.foldl (fun (acc : List Tok) u =>
    match acc with
    | t :: rest =>
      if t.2.contains 0x3D#8 && ((t.2.getLast?.map (isOperator false)).getD false || (u.2.head?.map (isOperator true)).getD false) then
        (t.1, t.2 ++ u.2) :: rest
      else u :: acc
    | [] => [u]) []).reverse

/-- The qualifiers of a command (R319), and the tokens that are left. `me` is this package's position, `names` the symbols that an
expression may name, `pkg` the position that the last `pkg X` names, `only` the column of the first qualifier that stands on `launch`
alone. -/
structure Quals where
  me : Nat
  names : List (List Byte × Int)
  pkg : Option Nat
  core : Option Nat
  cores : List (Nat × Bool)
  ctx : Option Nat
  iter : Option Nat
  ccs : List Nat
  kind : Option LaunchKind
  params : List (Nat × Nat)
  budget : Option Nat
  ports : List (Nat × Nat)
  farPorts : List (Nat × Nat)
  only : Option Nat
  rest : List Tok
  deriving DecidableEq, Repr

/-- No qualifier. -/
def Quals.none (me : Nat) (names : List (List Byte × Int)) : Quals :=
  ⟨me, names, Option.none, Option.none, [], Option.none, Option.none, [], Option.none, [], Option.none, [], [], Option.none, []⟩

/-- Whether the last `pkg X` names another package. -/
def Quals.far (q : Quals) : Bool := match q.pkg with | some p => p != q.me | .none => false

/-- What the next token is read as. -/
inductive Expect where
  | any
  | pkg
  | core
  | cores
  | more
  | ctx
  | iter
  deriving DecidableEq, Repr

/-- `pN=e`. -/
def paramOf (names : List (List Byte × Int)) (bs : List Byte) : Option (Nat × Nat) :=
  let (l, r) := bs.span fun b => b != 0x3D
  match after "p" l, value64 names (r.drop 1) with
  | some n, some v => if n < 64 ∧ r ≠ [] then some (n, v) else none
  | _, _ => none

/-- `budget=e`, an unsigned number of 64 bits (R63, R312). -/
def budgetOf (names : List (List Byte × Int)) (bs : List Byte) : Option Nat :=
  if (ascii "budget=").isPrefixOf bs then
    match exprAll names (bs.drop 7) with
    | some v => if 0 ≤ v ∧ v < 2 ^ 64 then some v.toNat else none
    | none => none
  else none

/-- A qualifier of `launch` alone. -/
def Quals.onLaunch (q : Quals) (t : Tok) : Quals := { q with only := some (q.only.getD t.1) }

/-- Reads a token where no qualifier waits for its number; a port of this package is bound to the last core named, one of
another package there. -/
def Quals.take (q : Quals) (t : Tok) : Except Nat (Quals × Expect) :=
  let b := t.2
  let l := q.onLaunch t
  if b = ascii "pkg" then .ok (q, .pkg)
  else if b = ascii "core" then .ok (q, .core)
  else if b = ascii "cores" then .ok (q, .cores)
  else if b = ascii "ctx" then .ok (q, .ctx)
  else if b = ascii "iter" then .ok (q, .iter)
  else if b = ascii "once" then .ok (q, .any)
  else if b = ascii "timed" then .ok ({ l with kind := some .timed }, .any)
  else if b = ascii "free" then .ok ({ l with kind := some .free }, .any)
  else if b = ascii "seeded" then .ok ({ l with kind := some .seeded }, .any)
  else
    match after "cc" b, paramOf q.names b, budgetOf q.names b, after "dp" b, q.core with
    | some n, _, _, _, _ => if n < 4 then .ok ({ q with ccs := q.ccs ++ [n] }, .any) else .error t.1
    | _, some p, _, _, _ => .ok ({ l with params := q.params ++ [p] }, .any)
    | _, _, some n, _, _ => .ok ({ l with budget := some n }, .any)
    | _, _, _, some p, some c =>
      if 48 ≤ p then .error t.1
      else .ok (if q.far then { l with farPorts := q.farPorts ++ [(q.pkg.getD q.me, p)] } else { l with ports := q.ports ++ [(c, p)] }, .any)
    | _, _, _, _, _ => .ok ({ q with rest := q.rest ++ [t] }, .any)

/-- A package's letter: its position in the group (log 52). -/
def letterOf (bs : List Byte) : Option Nat :=
  match bs with
  | [b] => if 65 ≤ b.toNat ∧ b.toNat ≤ 90 then some (b.toNat - 65) else none
  | _ => none

/-- Reads the tokens of a command; a qualifier's number that is none, or is too large, is refused at its column. A comma stands between the
numbers of `cores`, and on `launch` before `pkg`, and nowhere else. -/
def quals (q : Quals) (w : Expect) : List Tok → Except Nat Quals
  | [] => if w = .any ∨ w = .more then .ok q else .error 0
  | t :: ts =>
    if t.2 = ascii "," then
      if (w = .any ∨ w = .more) ∧ (ts.head?.map Prod.snd) = some (ascii "pkg") then quals (q.onLaunch t) .any ts
      else if w = .more then quals q .cores ts
      else .error t.1
    else
    match w, number t.2 with
    | .pkg, _ => match letterOf t.2 with | some p => quals { q with pkg := some p } .any ts | none => .error t.1
    | .core, some n => if n < 512 then quals { q with core := some n, cores := q.cores ++ [(n, q.far)] } .any ts else .error t.1
    | .cores, some n => if n < 512 then quals { q with core := some n, cores := q.cores ++ [(n, q.far)] } .more ts else .error t.1
    | .ctx, some n => if n < 4 then quals { q with ctx := some n } .any ts else .error t.1
    | .iter, some n => if n < 2 ^ 32 then quals { q with iter := some n } .any ts else .error t.1
    | .core, none => .error t.1
    | .ctx, none => .error t.1
    | .iter, none => .error t.1
    | .cores, none => .error t.1
    | .more, _ =>
      match q.take t with
      | .ok (q, w) => quals q w ts
      | .error c => .error c
    | .any, _ =>
      match q.take t with
      | .ok (q, w) => quals q w ts
      | .error c => .error c

/-- The context that a command without `core` and `ctx` means: one that Callote has stopped, else context 0 of core 0. -/
def State.focus (s : State) : Nat × Nat :=
  ((s.cores.flatMap fun q => q.2.ctxs.filterMap fun y => if y.2.debugStop then some (q.1, y.1) else none).head?).getD (0, 0)
/-- The control core that a command without `ccN` means. -/
def State.focusCC (s : State) : Nat :=
  (((List.range 4).find? fun n => (s.cc n).debugStop)).getD 0

/-- The code of a unit's name (R28). -/
def unitCode (b : List Byte) : Option Nat :=
  (([("sa0", 0), ("sa1", 2), ("sm", 4), ("lsc", 5), ("lv0", 6), ("lv1", 7), ("va0", 8), ("va1", 10), ("vt", 12), ("vs", 13), ("vq", 14),
    ("xu", 16), ("eu", 17), ("nu", 18), ("mx", 20), ("sy", 21)] : List (String × Nat)).find? fun p => ascii p.1 == b).map Prod.snd

/-- An ABI name or number of a control core's integer register (R241). -/
def ccRegCode (b : List Byte) : Option Nat :=
  let at_ := fun (pre : String) (lo : Nat) (f : Nat → Nat) (hi : Nat) =>
    (after pre b).bind fun n => if lo ≤ n ∧ n ≤ hi then some (f n) else none
  if b = ascii "zero" then some 0 else if b = ascii "ra" then some 1 else if b = ascii "sp" then some 2
  else if b = ascii "gp" then some 3 else if b = ascii "tp" then some 4 else if b = ascii "fp" then some 8
  else
    [at_ "x" 0 id 31, at_ "t" 0 (fun n => 5 + n) 2, at_ "t" 3 (fun n => 25 + n) 6, at_ "s" 0 (fun n => 8 + n) 1,
      at_ "s" 2 (fun n => 16 + n) 11, at_ "a" 0 (fun n => 10 + n) 7].findSome? id

/-- A register, or a latch or port that its unit has, as Spabex writes it (R28, R313). -/
def itemOf (c k cc : Nat) (b : List Byte) : Option PrintItem :=
  let src := fun (n : Nat) => PrintItem.source (BitVec.ofNat 9 c) (BitVec.ofNat 2 k) (BitVec.ofNat 10 n)
  let reg := fun (pre : String) (base n : Nat) => (after pre b).bind fun i => if i < n then some (src (base + i)) else none
  let (u, r) := b.span fun x => x != 0x2E
  match reg "S" 0 64, reg "V" 0x40 64, reg "Q" 0x80 16, reg "M" 0xC0 8, unitCode u, r with
  | some x, _, _, _, _, _ => some x
  | _, some x, _, _, _, _ => some x
  | _, _, some x, _, _, _ => some x
  | _, _, _, some x, _, _ => some x
  | _, _, _, _, some f, [0x2E#8, p] =>
    if p = 0x7A ∧ (latchClass f 0).isSome then some (src (0x100 + 8 * f))
    else if p = 0x79 ∧ (latchClass f 1).isSome then some (src (0x101 + 8 * f))
    else if 0x61 ≤ p.toNat ∧ p.toNat ≤ 0x64 ∧ (portClass f (p.toNat - 0x61)).isSome then
      some (.operand (BitVec.ofNat 9 c) (BitVec.ofNat 2 k) (BitVec.ofNat 5 f) (BitVec.ofNat 3 (p.toNat - 0x61)))
    else none
  | _, _, _, _, _, _ => (ccRegCode b).map fun n => .ccReg (BitVec.ofNat 2 cc) (BitVec.ofNat 5 n)

/-- Reads no more tokens: the first that stands is refused at its column. -/
def noMore {α : Type} (x : α) : List Tok → Except Nat α
  | [] => .ok x
  | t :: _ => .error t.1

/-- A number below a limit; another is refused at its column. -/
def numberBelow (n : Nat) (t : Tok) : Except Nat Nat :=
  match number t.2 with
  | some v => if v < n then .ok v else .error t.1
  | none => .error t.1

/-- The format of `print mem` (R319). -/
def formatOf (b : List Byte) : Option MemFormat :=
  if b = ascii "f32" then some .f32 else if b = ascii "x32" then some .x32 else if b = ascii "i32" then some .i32 else none

/-- Whether a token is a range of lanes, `m..n`. -/
def isRange (b : List Byte) : Bool :=
  let (l, r) := b.span fun x => x != 0x2E
  (number l).isSome && r.take 2 == [0x2E#8, 0x2E#8] && (number (r.drop 2)).isSome

/-- What may follow the name of a register or latch: a range of lanes and a format. -/
def shownAs {α : Type} (x : α) (ts : List Tok) : Except Nat α :=
  match ts with
  | t :: u => noMore x (if isRange t.2 then (match u with | f :: v => if (formatOf f.2).isSome then v else u | [] => []) else
      if (formatOf t.2).isSome then u else ts)
  | [] => .ok x

/-- The items of `print` (R319). -/
def printOf (s : State) (q : Quals) (ts : List Tok) : Except Nat (List PrintItem) :=
  let c := q.core.getD s.focus.1
  let k := q.ctx.getD s.focus.2
  let C := BitVec.ofNat 9 c
  let K := BitVec.ofNat 2 k
  match ts with
  | [] => if q.ctx.isSome then .ok [.ctx C K] else .error 0
  | t :: args =>
    let w := fun x => t.2 == ascii x
    let all := fun (xs : List PrintItem) => noMore xs args
    let one := fun (n : Nat) (f : Nat → PrintItem) =>
      match args with
      | a :: more => do
        let v ← numberBelow n a
        noMore [f v] more
      | [] => .error t.1
    if w "budg" then all [.budg C K] else if w "xcnt" then all [.xcnt C K] else if w "flags" then all [.flags C K]
    else if w "arr" then all [.arr C K] else if w "ecnt" then all [.ecnt C K] else if w "mx" then all [.mx C]
    else if w "gstat" then all [.gstat] else if w "stq" then all [.stq C K]
    else if w "eng" then noMore [.eng C K] (match args with | a :: more => if a.2 = ascii "last" then more else args | [] => [])
    else if w "kick" then all [.kick] else if w "tko" then all [.tko] else if w "journal" then all [.journal]
    else if w "launch" then all [.lastLaunch]
    else if w "spare" then all ((List.range 32).map fun i => .spare (BitVec.ofNat 5 i))
    else if w "conc" then one 256 fun n => .conc (BitVec.ofNat 8 n)
    else if w "colo" then one (2 ^ 64) fun n => .colo (BitVec.ofNat 64 n)
    else if w "xlat" then one (2 ^ 48) fun n => .xlat (jobOf (s.ctx c k).launch) (BitVec.ofNat 48 n)
    else if w "lst" then
      if args.isEmpty then .error t.1
      else args.mapM fun a => match number a.2 with | some n => .ok (PrintItem.launch (BitVec.ofNat 64 n)) | none => .error a.1
    else if w "port" then
      match args with
      | a :: more =>
        match after "dp" a.2 with
        | some n => if n < 48 then noMore [.port (BitVec.ofNat 6 n)] more else .error a.1
        | none => .error a.1
      | [] => .error t.1
    else if w "net" then
      match args with
      | b :: r :: p :: more => do
        let b ← numberBelow 2 b
        let r ← numberBelow 64 r
        let p ← numberBelow 32 p
        noMore [.net (b != 0) (BitVec.ofNat 6 r) (BitVec.ofNat 5 p)] more
      | _ => .error t.1
    else if w "mem" then
      match args with
      | a :: n :: f :: more => do
        let a ← numberBelow (2 ^ 48) a
        let n ← numberBelow (2 ^ 32) n
        match formatOf f.2 with
        | some fmt => noMore [.mem C (BitVec.ofNat 48 a) n fmt] more
        | none => .error f.1
      | _ => .error t.1
    else match itemOf c k ((q.ccs.head?).getD s.focusCC) t.2 with | some x => shownAs [x] args | none => .error t.1

/-- The stated error that `inject` names (R194, R222, R245). -/
def injectOf (s : State) (q : Quals) (ts : List Tok) : Except Nat Input :=
  let C := BitVec.ofNat 9 (q.core.getD s.focus.1)
  let K := BitVec.ofNat 2 (q.ctx.getD s.focus.2)
  match ts with
  | [] => .error 0
  | t :: args =>
    if t.2 = ascii "drift" then
      match args with
      | a :: more =>
        if a.2 = ascii "+1" then noMore (.injectDrift true) more else if a.2 = ascii "-1" then noMore (.injectDrift false) more else .error a.1
      | [] => .error t.1
    else
      match args with
      | [] => .error t.1
      | a :: more =>
        match tagNumber "b" a.2, tagNumber "i" a.2 with
        | some b, _ =>
          let B := BitVec.ofNat 13 b
          if 8192 ≤ b then .error a.1
          else if t.2 = ascii "residue" then noMore (.injectResidue C K B) more
          else if t.2 = ascii "bundle" then noMore (.calloteInject (.bundleFetch C B)) more
          else
            match more with
            | m :: more =>
              let expert := if (ascii "expert=").isPrefixOf m.2 then number (m.2.drop 7) else none
              match (if t.2 = ascii "delay" then number m.2 else none), (if t.2 = ascii "tagmiss" then expert else none) with
              | some n, _ => noMore (.injectDelay C K B n) more
              | _, some n => if n < 2 ^ 16 then noMore (.calloteInject (.tagMiss C K B (BitVec.ofNat 16 n))) more else .error m.1
              | _, _ => .error m.1
            | [] => .error t.1
        | none, some i => if t.2 = ascii "imem" then noMore (.injectImem (BitVec.ofNat 2 ((q.ccs.head?).getD 0)) i) more else .error t.1
        | none, none => .error a.1

/-- The kernel of a name, of the image loaded last that has it. -/
def State.kernelNamed (s : State) (name : List Byte) : Option (Nat × Nat) :=
  (s.out.images.zipIdx.flatMap fun im => im.1.kernels.zipIdx.filterMap fun k =>
    if k.1.name = name then some (im.2, k.2) else none).getLast?

/-- `enqueue image launch l queue n prio p at t` (R245). -/
def enqueueOf (a : Tok) : List Tok → Except Nat (List Input)
  | x1 :: l :: x2 :: n :: x3 :: p :: x4 :: t :: more => do
    let l ← numberBelow (2 ^ 64) l
    let n ← numberBelow 256 n
    let p ← numberBelow 8 p
    let t ← numberBelow (2 ^ 64) t
    if x1.2 ≠ ascii "launch" then .error x1.1
    else if x2.2 ≠ ascii "queue" then .error x2.1
    else if x3.2 ≠ ascii "prio" then .error x3.1
    else if x4.2 ≠ ascii "at" then .error x4.1
    else noMore [.calloteLoad (Config.file a.2) none none, .calloteEnqueue (BitVec.ofNat 64 l) (BitVec.ofNat 8 n) (BitVec.ofNat 8 p) none t] more
  | _ => .error a.1

/-- The commands of a verb that names nothing more than its qualifiers. -/
def plainOf (s : State) (q : Quals) (v : Tok) : Except Nat (List Input) :=
  let w := fun x => v.2 == ascii x
  let C := BitVec.ofNat 9 (q.core.getD s.focus.1)
  if w "run" then .ok [.calloteRun none]
  else if w "cycle" then .ok [.calloteCycle]
  else if w "group" then .ok [.calloteGroup]
  else if w "lat" then .ok [.calloteLat C]
  else if w "start" then .ok [.calloteStart (((q.ccs.head?).map (BitVec.ofNat 2)).getD 0)]
  else if w "print" then (printOf s q []).map fun xs => xs.map .callotePrint
  else .error (if ["step", "load", "launch", "break", "clear", "place", "watch", "enqueue", "inject"].any w then 0 else v.1)

/-- The commands of a verb with operands. -/
def operandsOf (s : State) (q : Quals) (v a : Tok) (more : List Tok) : Except Nat (List Input) :=
  let w := fun x => v.2 == ascii x
  let C := BitVec.ofNat 9 (q.core.getD s.focus.1)
  let K := BitVec.ofNat 2 (q.ctx.getD s.focus.2)
  let cc := fun (n : Nat) => (q.ccs[n]?).map (BitVec.ofNat 2)
  if w "load" then noMore [.calloteLoad (Config.file a.2) (cc 0) (cc 1)] more
  else if w "launch" then
    match s.kernelNamed a.2, q.kind with
    | some (im, k), some kind =>
      noMore [.calloteLaunch ⟨im, k, kind, q.cores.map fun c => BitVec.ofNat 9 c.1, q.cores.map Prod.snd, q.ctx.map (BitVec.ofNat 2),
        q.budget.map (BitVec.ofNat 64), q.params.map fun p => (BitVec.ofNat 6 p.1, BitVec.ofNat 64 p.2),
        q.ports.map (fun p => (BitVec.ofNat 9 p.1, BitVec.ofNat 6 p.2)), q.farPorts.map fun p => (BitVec.ofNat 8 p.1, BitVec.ofNat 6 p.2)⟩] more
    | _, _ => .error a.1
  else if w "break" then
    match tagNumber "b" a.2, tagNumber "i" a.2 with
    | some b, _ => if b < 8192 then noMore [.calloteBreak (.bundle C K (BitVec.ofNat 13 b) (q.iter.map (BitVec.ofNat 32)))] more else .error a.1
    | _, some i => noMore [.calloteBreak (.instr ((cc 0).getD 0) i)] more
    | _, _ => .error a.1
  else if w "clear" then
    match tagNumber "b" a.2, tagNumber "i" a.2 with
    | some b, _ => noMore [.calloteClear true b] more
    | _, some i => noMore [.calloteClear false i] more
    | _, _ => .error a.1
  else if w "run" then
    match more with
    | c :: more => do
      let n ← numberBelow (2 ^ 64) c
      if a.2 = ascii "to" then noMore [.calloteRun (some n)] more else .error a.1
    | [] => .error a.1
  else if w "step" then do
    let n ← numberBelow (2 ^ 64) a
    noMore [.calloteStep C K n] more
  else if w "print" then (printOf s q q.rest).map fun xs => xs.map .callotePrint
  else if w "place" then do
    let xs ← q.rest.mapM (numberBelow (2 ^ 48))
    .ok [.callotePlace C (xs.map (BitVec.ofNat 48))]
  else if w "watch" then
    if a.2 = ascii "xch" then
      match more.find? fun t => !(t.2.contains 0x3D#8) with
      | some t => .error t.1
      | none => .ok [.calloteWatch (.xch C K)]
    else if a.2 = ascii "hold" then noMore [.calloteWatch .hold] more
    else .error a.1
  else if w "enqueue" then enqueueOf a more
  else if w "inject" then (injectOf s q q.rest).map fun x => [x]
  else .error (if ["cycle", "group", "lat", "start"].any w then a.1 else v.1)

/-- The commands of a line (R319); an error is the column at which it cannot be parsed. A command that `pkg X` gives to another package has
no effect here. -/
def commandOf (s : State) (line : List Byte) : Except Nat (List Input) := do
  match tokens 1 [] line with
  | [] => .error 1
  | v :: ts =>
    let q ← quals (Quals.none s.position (s.out.images.reverse.flatMap Image.symbols)) .any (joined ts)
    let launch := v.2 == ascii "launch"
    match q.only, launch with
    | some c, false => .error c
    | _, _ =>
      let xs ← match q.rest with
        | [] => plainOf s q v
        | a :: more => operandsOf s q v a more
      .ok (if q.far && !launch then [] else xs)

/-- What answers a line that cannot be parsed: `? column c` (R319); where the line ends too soon, the column after it (log 52). -/
def columnText (line : List Byte) (c : Nat) : List Byte := ascii "? column " ++ ascii (toString (if c = 0 then line.length + 1 else c))

/-- A command line's effect and the text of its reply; a line that cannot be parsed changes nothing (R319). An accepted line opens the
session (R299). -/
def calloteLineH : Handler := fun s m =>
  match commandOf s m.body with
  | .error c => (s, 0, columnText m.body c)
  | .ok xs =>
    let s := { s with out := { s.out with session := true } }
    let s' := xs.foldl State.command s
    let new := s'.out.out.drop s.out.out.length
    ({ s' with out := { s'.out with out := s.out.out } }, 0, Config.printed ((0, m.body, []) :: new.map fun o => (o.kind, o.bytes, o.words)))

/-! ### The steps -/

/-- A command of the open session (R299). -/
def onCallote (s : State) (f : Input → State → State) : Outcome := onInput s fun x s => if s.calloteOpen then f x s else s

/-- CALLOTE_LINE (R301, R319). -/
def execCalloteLine (s : State) : Outcome :=
  onInput s fun x s => match x with | .calloteLine m => signedMsg 0x0040 calloteLineH s m | _ => s
/-- CALLOTE_LOAD (R245). -/
def execCalloteLoad (s : State) : Outcome :=
  onCallote s fun x s => match x with | .calloteLoad bs a b => doLoad bs a b s | _ => s
/-- CALLOTE_LAUNCH (R319). -/
def execCalloteLaunch (s : State) : Outcome :=
  onCallote s fun x s => match x with | .calloteLaunch r => doLaunch r s | _ => s
/-- BREAK (R319). -/
def execCalloteBreak (s : State) : Outcome :=
  onCallote s fun x s => match x with | .calloteBreak t => doBreak t s | _ => s
/-- CLEAR (R319). -/
def execCalloteClear (s : State) : Outcome :=
  onCallote s fun x s => match x with | .calloteClear b n => doClear b n s | _ => s
/-- RUN (R319). -/
def execCalloteRun (s : State) : Outcome :=
  onCallote s fun x s => match x with | .calloteRun t => doRun t s | _ => s
/-- STEP (R319). -/
def execCalloteStep (s : State) : Outcome :=
  onCallote s fun x s => match x with | .calloteStep c k n => doStep c.toNat k.toNat n s | _ => s
/-- PRINT (R12). -/
def execCallotePrint (s : State) : Outcome :=
  onCallote s fun x s => match x with | .callotePrint i => doPrint i s | _ => s
/-- PLACE (R12). -/
def execCallotePlace (s : State) : Outcome :=
  onCallote s fun x s => match x with | .callotePlace c xs => doPlace c.toNat xs s | _ => s
/-- CYCLE (R12). -/
def execCalloteCycle (s : State) : Outcome :=
  onCallote s fun x s => match x with | .calloteCycle => doCycle s | _ => s
/-- WATCH (R194). -/
def execCalloteWatch (s : State) : Outcome :=
  onCallote s fun x s => match x with | .calloteWatch k => doWatch k s | _ => s
/-- GROUP (R208). -/
def execCalloteGroup (s : State) : Outcome :=
  onCallote s fun x s => match x with | .calloteGroup => doGroup s | _ => s
/-- LAT (R68). -/
def execCalloteLat (s : State) : Outcome :=
  onCallote s fun x s => match x with | .calloteLat c => doLat c.toNat s | _ => s
/-- ENQUEUE (R245): the command, and the enqueue at its cycle. -/
def execCalloteEnqueue (s : State) : Outcome :=
  match s.cause with
  | .due p =>
    let s := s.taken p
    match p.ev with
    | .arrival l q pr d => .next (doArrival l q pr d s)
    | _ => .next s
  | _ => onCallote s fun x s => match x with | .calloteEnqueue l q p d n => doEnqueue l q p d n s | _ => s
/-- START (R245). -/
def execCalloteStart (s : State) : Outcome :=
  onCallote s fun x s => match x with | .calloteStart n => doStart n.toNat s | _ => s
/-- INJECT (R194). -/
def execCalloteInject (s : State) : Outcome :=
  onCallote s fun x s => match x with | .calloteInject k => doInject k s | _ => s
/-- INJECT_DRIFT (R194): the offset of this package moves by a whole cycle. -/
def execInjectDrift (s : State) : Outcome :=
  onCallote s fun x s => match x with | .injectDrift up => s.measured (s.gs.offset + if up then 16 else -16) | _ => s
/-- INJECT_RESIDUE (R194). -/
def execInjectResidue (s : State) : Outcome :=
  onCallote s fun x s => match x with | .injectResidue c k b => doResidue c.toNat k.toNat b.toNat s | _ => s
/-- INJECT_DELAY (R222). -/
def execInjectDelay (s : State) : Outcome :=
  onCallote s fun x s => match x with | .injectDelay c k b n => doDelay c.toNat k.toNat b.toNat n s | _ => s
/-- INJECT_IMEM (R245). -/
def execInjectImem (s : State) : Outcome :=
  onCallote s fun x s => match x with | .injectImem n i => doImem n.toNat i s | _ => s

end Sys2Proof.Machine
end

