-- ==== Sys2Proof/Machine/ExecAlu.lean ====
section
/-! DEFINITION. The meanings of the steps of the scalar units and the scalar access unit (R40 to R43, R71 to R73). -/

namespace Sys2Proof.Machine

/-- ADD (R40): z := a + t mod 2^64 at +1. -/
def execAdd (g : BitVec 4) (s : BitVec 10) (u : BitVec 1) (st : State) : Outcome :=
  .next (issue (bundleOfOp g s (0x200#10 ||| (u.zeroExtend 10 <<< 5)) (some (opAdd (2 * u.toNat)))) st)

/-- SUB (R40): z := a - t mod 2^64. -/
def execSub (g : BitVec 4) (s : BitVec 10) (u : BitVec 1) (st : State) : Outcome :=
  .next (issue (bundleOfOp g s (0x201#10 ||| (u.zeroExtend 10 <<< 5)) (some (opSub (2 * u.toNat)))) st)

/-- AND (R40): z := a AND t. -/
def execAnd (g : BitVec 4) (s : BitVec 10) (u : BitVec 1) (st : State) : Outcome :=
  .next (issue (bundleOfOp g s (0x202#10 ||| (u.zeroExtend 10 <<< 5)) (some (opAnd (2 * u.toNat)))) st)

/-- OR (R40): z := a OR t. -/
def execOr (g : BitVec 4) (s : BitVec 10) (u : BitVec 1) (st : State) : Outcome :=
  .next (issue (bundleOfOp g s (0x203#10 ||| (u.zeroExtend 10 <<< 5)) (some (opOr (2 * u.toNat)))) st)

/-- XOR (R40): z := a XOR t. -/
def execXor (g : BitVec 4) (s : BitVec 10) (u : BitVec 1) (st : State) : Outcome :=
  .next (issue (bundleOfOp g s (0x204#10 ||| (u.zeroExtend 10 <<< 5)) (some (opXor (2 * u.toNat)))) st)

/-- ANDN (R40): z := a AND NOT t. -/
def execAndn (g : BitVec 4) (s : BitVec 10) (u : BitVec 1) (st : State) : Outcome :=
  .next (issue (bundleOfOp g s (0x205#10 ||| (u.zeroExtend 10 <<< 5)) (some (opAndn (2 * u.toNat)))) st)

/-- SHL (R40): z := a << t[5:0]. -/
def execShl (g : BitVec 4) (s : BitVec 10) (u : BitVec 1) (st : State) : Outcome :=
  .next (issue (bundleOfOp g s (0x206#10 ||| (u.zeroExtend 10 <<< 5)) (some (opShl (2 * u.toNat)))) st)

/-- SHR (R40): z := a shifted right logically by t[5:0]. -/
def execShr (g : BitVec 4) (s : BitVec 10) (u : BitVec 1) (st : State) : Outcome :=
  .next (issue (bundleOfOp g s (0x207#10 ||| (u.zeroExtend 10 <<< 5)) (some (opShr (2 * u.toNat)))) st)

/-- SAR (R40): z := a shifted right arithmetically by t[5:0]. -/
def execSar (g : BitVec 4) (s : BitVec 10) (u : BitVec 1) (st : State) : Outcome :=
  .next (issue (bundleOfOp g s (0x208#10 ||| (u.zeroExtend 10 <<< 5)) (some (opSar (2 * u.toNat)))) st)

/-- MIN (R40): z := the signed lesser of a and t. -/
def execMin (g : BitVec 4) (s : BitVec 10) (u : BitVec 1) (st : State) : Outcome :=
  .next (issue (bundleOfOp g s (0x209#10 ||| (u.zeroExtend 10 <<< 5)) (some (opMin (2 * u.toNat)))) st)

/-- MAX (R40): z := the signed greater of a and t. -/
def execMax (g : BitVec 4) (s : BitVec 10) (u : BitVec 1) (st : State) : Outcome :=
  .next (issue (bundleOfOp g s (0x20A#10 ||| (u.zeroExtend 10 <<< 5)) (some (opMax (2 * u.toNat)))) st)

/-- MINU (R40): z := the unsigned lesser of a and t. -/
def execMinu (g : BitVec 4) (s : BitVec 10) (u : BitVec 1) (st : State) : Outcome :=
  .next (issue (bundleOfOp g s (0x20B#10 ||| (u.zeroExtend 10 <<< 5)) (some (opMinu (2 * u.toNat)))) st)

/-- MAXU (R40): z := the unsigned greater of a and t. -/
def execMaxu (g : BitVec 4) (s : BitVec 10) (u : BitVec 1) (st : State) : Outcome :=
  .next (issue (bundleOfOp g s (0x20C#10 ||| (u.zeroExtend 10 <<< 5)) (some (opMaxu (2 * u.toNat)))) st)

/-- SEL (R40): z := a if b is nonzero, else t. -/
def execSel (g : BitVec 4) (s : BitVec 10) (u : BitVec 1) (st : State) : Outcome :=
  .next (issue (bundleOfOp g s (0x20D#10 ||| (u.zeroExtend 10 <<< 5)) (some (opSel (2 * u.toNat)))) st)

/-- PASS (R40): z := t. -/
def execPass (g : BitVec 4) (s : BitVec 10) (u : BitVec 1) (st : State) : Outcome :=
  .next (issue (bundleOfOp g s (0x20E#10 ||| (u.zeroExtend 10 <<< 5)) (some (opPass (2 * u.toNat)))) st)

/-- HI (R40): z := t[31:0] in the high half over a[31:0]. -/
def execHi (g : BitVec 4) (s : BitVec 10) (u : BitVec 1) (st : State) : Outcome :=
  .next (issue (bundleOfOp g s (0x20F#10 ||| (u.zeroExtend 10 <<< 5)) (some (opHi (2 * u.toNat)))) st)

/-- CEQ (R41): z := 1 if a = t, else 0. -/
def execCeq (g : BitVec 4) (s : BitVec 10) (u : BitVec 1) (st : State) : Outcome :=
  .next (issue (bundleOfOp g s (0x210#10 ||| (u.zeroExtend 10 <<< 5)) (some (opCeq (2 * u.toNat)))) st)

/-- CNE (R41): z := 1 if a differs from t, else 0. -/
def execCne (g : BitVec 4) (s : BitVec 10) (u : BitVec 1) (st : State) : Outcome :=
  .next (issue (bundleOfOp g s (0x211#10 ||| (u.zeroExtend 10 <<< 5)) (some (opCne (2 * u.toNat)))) st)

/-- CLT (R41): Signed a < t. -/
def execClt (g : BitVec 4) (s : BitVec 10) (u : BitVec 1) (st : State) : Outcome :=
  .next (issue (bundleOfOp g s (0x212#10 ||| (u.zeroExtend 10 <<< 5)) (some (opClt (2 * u.toNat)))) st)

/-- CLTU (R41): Unsigned a < t. -/
def execCltu (g : BitVec 4) (s : BitVec 10) (u : BitVec 1) (st : State) : Outcome :=
  .next (issue (bundleOfOp g s (0x213#10 ||| (u.zeroExtend 10 <<< 5)) (some (opCltu (2 * u.toNat)))) st)

/-- CLE (R41): Signed a <= t. -/
def execCle (g : BitVec 4) (s : BitVec 10) (u : BitVec 1) (st : State) : Outcome :=
  .next (issue (bundleOfOp g s (0x214#10 ||| (u.zeroExtend 10 <<< 5)) (some (opCle (2 * u.toNat)))) st)

/-- CLEU (R41): Unsigned a <= t. -/
def execCleu (g : BitVec 4) (s : BitVec 10) (u : BitVec 1) (st : State) : Outcome :=
  .next (issue (bundleOfOp g s (0x215#10 ||| (u.zeroExtend 10 <<< 5)) (some (opCleu (2 * u.toNat)))) st)

/-- CLZ (R41): Counts the leading zeros of t. -/
def execClz (g : BitVec 4) (s : BitVec 10) (u : BitVec 1) (st : State) : Outcome :=
  .next (issue (bundleOfOp g s (0x216#10 ||| (u.zeroExtend 10 <<< 5)) (some (opClz (2 * u.toNat)))) st)

/-- CTZ (R41): Counts the trailing zeros of t. -/
def execCtz (g : BitVec 4) (s : BitVec 10) (u : BitVec 1) (st : State) : Outcome :=
  .next (issue (bundleOfOp g s (0x217#10 ||| (u.zeroExtend 10 <<< 5)) (some (opCtz (2 * u.toNat)))) st)

/-- POPC (R41): Counts the set bits of t. -/
def execPopc (g : BitVec 4) (s : BitVec 10) (u : BitVec 1) (st : State) : Outcome :=
  .next (issue (bundleOfOp g s (0x218#10 ||| (u.zeroExtend 10 <<< 5)) (some (opPopc (2 * u.toNat)))) st)

/-- SX8 (R41): Sign-extends t from 8 bits. -/
def execSx8 (g : BitVec 4) (s : BitVec 10) (u : BitVec 1) (st : State) : Outcome :=
  .next (issue (bundleOfOp g s (0x219#10 ||| (u.zeroExtend 10 <<< 5)) (some (opSx8 (2 * u.toNat)))) st)

/-- SX16 (R41): Sign-extends t from 16 bits. -/
def execSx16 (g : BitVec 4) (s : BitVec 10) (u : BitVec 1) (st : State) : Outcome :=
  .next (issue (bundleOfOp g s (0x21A#10 ||| (u.zeroExtend 10 <<< 5)) (some (opSx16 (2 * u.toNat)))) st)

/-- SX32 (R41): Sign-extends t from 32 bits. -/
def execSx32 (g : BitVec 4) (s : BitVec 10) (u : BitVec 1) (st : State) : Outcome :=
  .next (issue (bundleOfOp g s (0x21B#10 ||| (u.zeroExtend 10 <<< 5)) (some (opSx32 (2 * u.toNat)))) st)

/-- ZX32 (R41): Zero-extends t from 32 bits. -/
def execZx32 (g : BitVec 4) (s : BitVec 10) (u : BitVec 1) (st : State) : Outcome :=
  .next (issue (bundleOfOp g s (0x21C#10 ||| (u.zeroExtend 10 <<< 5)) (some (opZx32 (2 * u.toNat)))) st)

/-- BEXT (R41): Extracts a bit field of a at the position and width given in t. -/
def execBext (g : BitVec 4) (s : BitVec 10) (u : BitVec 1) (st : State) : Outcome :=
  .next (issue (bundleOfOp g s (0x21D#10 ||| (u.zeroExtend 10 <<< 5)) (some (opBext (2 * u.toNat)))) st)

/-- BINS (R41): Inserts b into a bit field of a. -/
def execBins (g : BitVec 4) (s : BitVec 10) (u : BitVec 1) (st : State) : Outcome :=
  .next (issue (bundleOfOp g s (0x21E#10 ||| (u.zeroExtend 10 <<< 5)) (some (opBins (2 * u.toNat)))) st)

/-- ADDS (R41): Signed add, saturated to 64 bits. -/
def execAdds (g : BitVec 4) (s : BitVec 10) (u : BitVec 1) (st : State) : Outcome :=
  .next (issue (bundleOfOp g s (0x21F#10 ||| (u.zeroExtend 10 <<< 5)) (some (opAdds (2 * u.toNat)))) st)

/-- MUL (R42): Low 64 bits of a × t, landing at +3. -/
def execMul (g : BitVec 4) (s : BitVec 10) (st : State) : Outcome :=
  .next (issue (bundleOfOp g s 0x240#10 (some opMul)) st)

/-- MULH (R42): High 64 bits of the signed product. -/
def execMulh (g : BitVec 4) (s : BitVec 10) (st : State) : Outcome :=
  .next (issue (bundleOfOp g s 0x241#10 (some opMulh)) st)

/-- MULHU (R42): High 64 bits of the unsigned product. -/
def execMulhu (g : BitVec 4) (s : BitVec 10) (st : State) : Outcome :=
  .next (issue (bundleOfOp g s 0x242#10 (some opMulhu)) st)

/-- DIV (R43): Signed quotient at +18, with the defined special cases. -/
def execDiv (g : BitVec 4) (s : BitVec 10) (st : State) : Outcome :=
  .next (issue (bundleOfOp g s 0x243#10 (some opDiv)) st)

/-- DIVU (R43): Unsigned quotient. -/
def execDivu (g : BitVec 4) (s : BitVec 10) (st : State) : Outcome :=
  .next (issue (bundleOfOp g s 0x244#10 (some opDivu)) st)

/-- REM (R43): Signed remainder. -/
def execRem (g : BitVec 4) (s : BitVec 10) (st : State) : Outcome :=
  .next (issue (bundleOfOp g s 0x245#10 (some opRem)) st)

/-- REMU (R43): Unsigned remainder. -/
def execRemu (g : BitVec 4) (s : BitVec 10) (st : State) : Outcome :=
  .next (issue (bundleOfOp g s 0x246#10 (some opRemu)) st)

/-- MIX (R42): z := mix(a, t) at +4. -/
def execMix (g : BitVec 4) (s : BitVec 10) (st : State) : Outcome :=
  .next (issue (bundleOfOp g s 0x247#10 (some opMix)) st)

/-- LD8 (R71): Loads a sign-extended byte at a + t. -/
def execLd8 (g : BitVec 4) (s : BitVec 10) (st : State) : Outcome :=
  .next (issue (bundleOfOp g s 0x250#10 (some opLd8)) st)

/-- LD8U (R71): Loads a zero-extended byte. -/
def execLd8u (g : BitVec 4) (s : BitVec 10) (st : State) : Outcome :=
  .next (issue (bundleOfOp g s 0x251#10 (some opLd8u)) st)

/-- LD16 (R71): Loads sign-extended 16 bits. -/
def execLd16 (g : BitVec 4) (s : BitVec 10) (st : State) : Outcome :=
  .next (issue (bundleOfOp g s 0x252#10 (some opLd16)) st)

/-- LD16U (R71): Loads zero-extended 16 bits. -/
def execLd16u (g : BitVec 4) (s : BitVec 10) (st : State) : Outcome :=
  .next (issue (bundleOfOp g s 0x253#10 (some opLd16u)) st)

/-- LD32 (R71): Loads sign-extended 32 bits. -/
def execLd32 (g : BitVec 4) (s : BitVec 10) (st : State) : Outcome :=
  .next (issue (bundleOfOp g s 0x254#10 (some opLd32)) st)

/-- LD32U (R71): Loads zero-extended 32 bits. -/
def execLd32u (g : BitVec 4) (s : BitVec 10) (st : State) : Outcome :=
  .next (issue (bundleOfOp g s 0x255#10 (some opLd32u)) st)

/-- LD64 (R71): Loads 64 bits. -/
def execLd64 (g : BitVec 4) (s : BitVec 10) (st : State) : Outcome :=
  .next (issue (bundleOfOp g s 0x256#10 (some opLd64)) st)

/-- ST8 (R71): Stores t[7:0] at a + b. -/
def execSt8 (g : BitVec 4) (s : BitVec 10) (st : State) : Outcome :=
  .next (issue (bundleOfOp g s 0x257#10 (some opSt8)) st)

/-- ST16 (R71): Stores 16 bits. -/
def execSt16 (g : BitVec 4) (s : BitVec 10) (st : State) : Outcome :=
  .next (issue (bundleOfOp g s 0x258#10 (some opSt16)) st)

/-- ST32 (R71): Stores 32 bits. -/
def execSt32 (g : BitVec 4) (s : BitVec 10) (st : State) : Outcome :=
  .next (issue (bundleOfOp g s 0x259#10 (some opSt32)) st)

/-- ST64 (R71): Stores 64 bits. -/
def execSt64 (g : BitVec 4) (s : BitVec 10) (st : State) : Outcome :=
  .next (issue (bundleOfOp g s 0x25A#10 (some opSt64)) st)

/-- CAS (R72): Atomic compare-and-swap of a 64-bit carrel word. -/
def execCas (g : BitVec 4) (s : BitVec 10) (st : State) : Outcome :=
  .next (issue (bundleOfOp g s 0x25B#10 (some opCas)) st)

/-- LDLIVE (R73): Reads a count clamped by a codex bound, with trap or deferral. -/
def execLdlive (g : BitVec 4) (s : BitVec 10) (st : State) : Outcome :=
  .next (issue (bundleOfOp g s 0x25C#10 (some opLdlive)) st)

end Sys2Proof.Machine
end

