-- ==== Sys2Proof/Machine/ExecBeat.lean ====
section
/-! DEFINITION. The meanings of the steps of the beat slot (R153 to R157). -/

namespace Sys2Proof.Machine

/-- PUSH (R153): Loads one weight row into a course. -/
def execPush (g : BitVec 4) (c : BitVec 2) (row : BitVec 8) (st : State) : Outcome :=
  .next (issue (bundleOfBeatOp ((beatOf (.push g c row)).getD 0) g (beatPush c.toNat row.toNat)) st)

/-- FEED (R154): Feeds a row slot through the array with cell-op mac into a sum-file entry. -/
def execFeed (g : BitVec 4) (p : BitVec 2) (e : BitVec 6) (acc : BitVec 1) (st : State) : Outcome :=
  .next (issue (bundleOfBeatOp ((beatOf (.feed g p e acc)).getD 0) g (beatFeed 0 p.toNat e.toNat (acc == 1))) st)

/-- FEED_ABSD (R154): A feed whose cells contribute the absolute difference. -/
def execFeedAbsd (g : BitVec 4) (p : BitVec 2) (e : BitVec 6) (acc : BitVec 1) (st : State) : Outcome :=
  .next (issue (bundleOfBeatOp ((beatOf (.feedAbsd g p e acc)).getD 0) g (beatFeed 1 p.toNat e.toNat (acc == 1))) st)

/-- FEED_CMPS (R154): A feed whose entries take the maximum of the products. -/
def execFeedCmps (g : BitVec 4) (p : BitVec 2) (e : BitVec 6) (acc : BitVec 1) (st : State) : Outcome :=
  .next (issue (bundleOfBeatOp ((beatOf (.feedCmps g p e acc)).getD 0) g (beatFeed 2 p.toNat e.toNat (acc == 1))) st)

/-- GFEED (R157): Gradient feed: adds x · dy into the course accumulators. -/
def execGfeed (g : BitVec 4) (p : BitVec 2) (st : State) : Outcome :=
  .next (issue (bundleOfBeatOp ((beatOf (.gfeed g p)).getD 0) g (beatGfeed p.toNat)) st)

/-- DRAIN (R156): Checks residues and converts a sum-file entry to FP32. -/
def execDrain (g : BitVec 4) (e : BitVec 6) (st : State) : Outcome :=
  .next (issue (bundleOfBeatOp ((beatOf (.drain g e)).getD 0) g (beatDrain e.toNat)) st)

/-- GDRAIN (R157): Checks and converts a row of gradient accumulators. -/
def execGdrain (g : BitVec 4) (c : BitVec 2) (k : BitVec 8) (st : State) : Outcome :=
  .next (issue (bundleOfBeatOp ((beatOf (.gdrain g c k)).getD 0) g (beatGdrain c.toNat k.toNat)) st)

/-- CLR (R156): Clears a sum-file entry at +264. -/
def execClr (g : BitVec 4) (e : BitVec 6) (st : State) : Outcome :=
  .next (issue (bundleOfBeatOp ((beatOf (.clr g e)).getD 0) g (beatClr e.toNat)) st)

/-- GCLR (R157): Clears every accumulator of a course. -/
def execGclr (g : BitVec 4) (c : BitVec 2) (st : State) : Outcome :=
  .next (issue (bundleOfBeatOp ((beatOf (.gclr g c)).getD 0) g (beatGclr c.toNat)) st)

end Sys2Proof.Machine
end

