-- ==== Sys2Proof/Machine/ExecBundle.lean ====
section
/-! DEFINITION. The meanings of the steps of a whole bundle, CHECKPOINT and MOVE (R27, R29, R213). -/

namespace Sys2Proof.Machine

/-- BUNDLE_ISSUE (R29): A context issues one 256-bit bundle: guards and sources are read, writes are made, triggers start, then the beat and
control slots act. -/
def execBundleIssue (b : BitVec 256) (st : State) : Outcome :=
  .next (issue (bundleOfWord b) st)

/-- CHECKPOINT (R213): A CK bundle waits until nothing of its context is in flight, then issues and snapshots the region state. -/
def execCheckpoint (b : BitVec 256) (st : State) : Outcome :=
  .next (issue (bundleOfWord b) st)

/-- MOVE (R27): Carries one value from a source to a register, port or trigger. -/
def execMove (g : BitVec 4) (s : BitVec 10) (d : BitVec 10) (st : State) : Outcome :=
  .next (issue (bundleOfOp g s d none) st)

end Sys2Proof.Machine
end

