-- ==== Sys2Proof/Machine/ExecCtl.lean ====
section
/-! DEFINITION. The meanings of the steps of the control slot (R45 to R60, R124, R175, R200, R212, R234). -/

namespace Sys2Proof.Machine

/-- NOP (R35): Does nothing. -/
def execNop (g : BitVec 4) (st : State) : Outcome :=
  .next (issue (bundleOfCtlOp (.nop g) g ctlNop) st)

/-- BR (R46): Relative branch. -/
def execBr (g : BitVec 4) (o : BitVec 14) (st : State) : Outcome :=
  .next (issue (bundleOfCtlOp (.br g o) g (ctlBr o)) st)

/-- CALL (R47): Relative call that saves a link word with the frame floor. -/
def execCall (g : BitVec 4) (n : BitVec 6) (o : BitVec 14) (st : State) : Outcome :=
  .next (issue (bundleOfCtlOp (.call g n o) g (ctlCall n o)) st)

/-- RET (R47): Checks the link word and returns, restoring the floor. -/
def execRet (g : BitVec 4) (n : BitVec 6) (st : State) : Outcome :=
  .next (issue (bundleOfCtlOp (.ret g n) g (ctlRet n)) st)

/-- JMPI (R48): Indirect jump. -/
def execJmpi (g : BitVec 4) (n : BitVec 6) (st : State) : Outcome :=
  .next (issue (bundleOfCtlOp (.jmpi g n) g (ctlJmpi n)) st)

/-- CALLI (R47): Indirect call. -/
def execCalli (g : BitVec 4) (n : BitVec 6) (m : BitVec 6) (st : State) : Outcome :=
  .next (issue (bundleOfCtlOp (.calli g n m) g (ctlCalli n m)) st)

/-- LIMM (R49): Forms the sign-extended long immediate #L. -/
def execLimm (g : BitVec 4) (v : BitVec 22) (st : State) : Outcome :=
  .next (issue (bundleOfCtlOp (.limm g v) g ctlLimm) st)

/-- LIMMH (R49): Forms #L := v << 22. -/
def execLimmh (g : BitVec 4) (v : BitVec 22) (st : State) : Outcome :=
  .next (issue (bundleOfCtlOp (.limmh g v) g ctlLimmh) st)

/-- LOOP (R57): Opens a hardware loop level with its count in a register. -/
def execLoop (g : BitVec 4) (k : BitVec 2) (n : BitVec 6) (d : BitVec 10) (s : BitVec 3) (r : BitVec 1) (st : State) : Outcome :=
  .next (issue (bundleOfCtlOp (.loop g k n d s r) g (ctlLoop k n d s r)) st)

/-- LOOPI (R57): Opens a hardware loop level with an immediate count. -/
def execLoopi (g : BitVec 4) (k : BitVec 2) (c : BitVec 6) (d : BitVec 10) (s : BitVec 3) (r : BitVec 1) (st : State) : Outcome :=
  .next (issue (bundleOfCtlOp (.loopi g k c d s r) g (ctlLoopi k c d s r)) st)

/-- BRK (R60): Leaves loop level k and every level inside it. -/
def execBrk (g : BitVec 4) (k : BitVec 2) (st : State) : Outcome :=
  .next (issue (bundleOfCtlOp (.brk g k) g (ctlBrk k)) st)

/-- MPUSH (R124): Pushes top AND M[n] onto the mask stack. -/
def execMpush (g : BitVec 4) (n : BitVec 3) (st : State) : Outcome :=
  .next (issue (bundleOfCtlOp (.mpush g n) g (ctlMpush n)) st)

/-- MPOP (R124): Pops the mask stack. -/
def execMpop (g : BitVec 4) (st : State) : Outcome :=
  .next (issue (bundleOfCtlOp (.mpop g) g ctlMpop) st)

/-- MINV (R124): Removes the lanes of M[n] from the top of the mask stack. -/
def execMinv (g : BitVec 4) (n : BitVec 3) (st : State) : Outcome :=
  .next (issue (bundleOfCtlOp (.minv g n) g (ctlMinv n)) st)

/-- MINV_ELSE (R124): Replaces the top with parent AND NOT top. -/
def execMinvElse (g : BitVec 4) (st : State) : Outcome :=
  .next (issue (bundleOfCtlOp (.minvElse g) g ctlMinvElse) st)

/-- BRNONE (R124): Branches if no lane of the top is set. -/
def execBrnone (g : BitVec 4) (o : BitVec 14) (st : State) : Outcome :=
  .next (issue (bundleOfCtlOp (.brnone g o) g (ctlBrnone o)) st)

/-- BRANY (R124): Branches if any lane of the top is set. -/
def execBrany (g : BitVec 4) (o : BitVec 14) (st : State) : Outcome :=
  .next (issue (bundleOfCtlOp (.brany g o) g (ctlBrany o)) st)

/-- WAIT_ENG (R50): Free context waits for an engine completion counter. -/
def execWaitEng (g : BitVec 4) (e : BitVec 3) (n : BitVec 6) (st : State) : Outcome :=
  .next (issue (bundleOfCtlOp (.waitEng g e n) g (ctlWaitEng e n)) st)

/-- WAIT_ARR (R50): Waits for an arrival counter to be done. -/
def execWaitArr (g : BitVec 4) (k : BitVec 3) (st : State) : Outcome :=
  .next (issue (bundleOfCtlOp (.waitArr g k) g (ctlWaitArr k)) st)

/-- WAIT_XCNT (R50): Waits for the exchange completion counter. -/
def execWaitXcnt (g : BitVec 4) (n : BitVec 6) (st : State) : Outcome :=
  .next (issue (bundleOfCtlOp (.waitXcnt g n) g (ctlWaitXcnt n)) st)

/-- WAIT_WEQ (R50): Waits until a carrel word equals a value. -/
def execWaitWeq (g : BitVec 4) (n : BitVec 6) (m : BitVec 6) (st : State) : Outcome :=
  .next (issue (bundleOfCtlOp (.waitWeq g n m) g (ctlWaitWeq n m)) st)

/-- WAIT_WNE (R50): Waits until a carrel word differs from a value. -/
def execWaitWne (g : BitVec 4) (n : BitVec 6) (m : BitVec 6) (st : State) : Outcome :=
  .next (issue (bundleOfCtlOp (.waitWne g n m) g (ctlWaitWne n m)) st)

/-- WAITC (R51): Holds the next bundle until the given group cycle. -/
def execWaitc (g : BitVec 4) (n : BitVec 6) (st : State) : Outcome :=
  .next (issue (bundleOfCtlOp (.waitc g n) g (ctlWaitc n)) st)

/-- PHASE_LAUNCH (R175): Phase boundary over the launch's contexts on this package. -/
def execPhaseLaunch (g : BitVec 4) (w : BitVec 20) (st : State) : Outcome :=
  .next (issue (bundleOfCtlOp (.phaseLaunch g w) g (ctlPhaseLaunch w)) st)

/-- PHASE_GROUP (R175): Phase boundary over every package of the sync group. -/
def execPhaseGroup (g : BitVec 4) (w : BitVec 20) (st : State) : Outcome :=
  .next (issue (bundleOfCtlOp (.phaseGroup g w) g (ctlPhaseGroup w)) st)

/-- TUNE (R200): Corrects schedule drift by plus or minus one cycle when a tune is due. -/
def execTune (g : BitVec 4) (st : State) : Outcome :=
  .next (issue (bundleOfCtlOp (.tune g) g ctlTune) st)

/-- CFENCE (R160): Holds the next bundle until earlier carrel accesses have landed. -/
def execCfence (g : BitVec 4) (st : State) : Outcome :=
  .next (issue (bundleOfCtlOp (.cfence g) g ctlCfence) st)

/-- SFENCE_ACQ (R234): Stacks acquire fence. -/
def execSfenceAcq (g : BitVec 4) (st : State) : Outcome :=
  .next (issue (bundleOfCtlOp (.sfenceAcq g) g ctlSfenceAcq) st)

/-- SFENCE_REL (R234): Stacks release fence. -/
def execSfenceRel (g : BitVec 4) (st : State) : Outcome :=
  .next (issue (bundleOfCtlOp (.sfenceRel g) g ctlSfenceRel) st)

/-- SFENCE_ACQ_REL (R234): Both stacks fences. -/
def execSfenceAcqRel (g : BitVec 4) (st : State) : Outcome :=
  .next (issue (bundleOfCtlOp (.sfenceAcqRel g) g ctlSfenceAcqRel) st)

/-- TRAP (R53): Software trap with a 16-bit code. -/
def execTrap (g : BitVec 4) (c : BitVec 16) (st : State) : Outcome :=
  .next (issue (bundleOfCtlOp (.trap g c) g (ctlTrap c)) st)

/-- SYSC (R54): Requests a service from the supervising control core. -/
def execSysc (g : BitVec 4) (s : BitVec 16) (st : State) : Outcome :=
  .next (issue (bundleOfCtlOp (.sysc g s) g (ctlSysc s)) st)

/-- HALT (R55): Ends the task's issue. -/
def execHalt (g : BitVec 4) (st : State) : Outcome :=
  .next (issue (bundleOfCtlOp (.halt g) g ctlHalt) st)

/-- YIELD (R52): Puts a free context behind the others of its priority. -/
def execYield (g : BitVec 4) (st : State) : Outcome :=
  .next (issue (bundleOfCtlOp (.yield g) g ctlYield) st)

/-- CKEND (R212): Ends a checkpoint region once its beats have landed. -/
def execCkend (g : BitVec 4) (st : State) : Outcome :=
  .next (issue (bundleOfCtlOp (.ckend g) g ctlCkend) st)

end Sys2Proof.Machine
end

