-- ==== Sys2Proof/Machine/ExecNet.lean ====
section
/-! DEFINITION. The meanings of the steps of the exchange unit, the engine unit and the network unit (R77 to R82, R185 to R192, R204,
R225 to R238). -/

namespace Sys2Proof.Machine

/-- XCH (R77): Checks, claims and starts a folio exchange of two locations. -/
def execXch (g : BitVec 4) (s : BitVec 10) (st : State) : Outcome :=
  .next (issue (bundleOfOp g s 0x300#10 (some opXch)) st)

/-- XCHC (R77): Folio exchange with shelf-mark checks. -/
def execXchc (g : BitVec 4) (s : BitVec 10) (st : State) : Outcome :=
  .next (issue (bundleOfOp g s 0x301#10 (some opXchc)) st)

/-- XCHL (R77): Leaf exchange. -/
def execXchl (g : BitVec 4) (s : BitVec 10) (st : State) : Outcome :=
  .next (issue (bundleOfOp g s 0x302#10 (some opXchl)) st)

/-- XCHLC (R77): Leaf exchange with mark checks on the containing folios. -/
def execXchlc (g : BitVec 4) (s : BitVec 10) (st : State) : Outcome :=
  .next (issue (bundleOfOp g s 0x303#10 (some opXchlc)) st)

/-- MARK (R82): Reads a folio's shelf mark and blank flag. -/
def execMark (g : BitVec 4) (s : BitVec 10) (st : State) : Outcome :=
  .next (issue (bundleOfOp g s 0x304#10 (some opMark)) st)

/-- VAC (R82): Makes a folio blank. -/
def execVac (g : BitVec 4) (s : BitVec 10) (st : State) : Outcome :=
  .next (issue (bundleOfOp g s 0x305#10 (some opVac)) st)

/-- SETM (R82): Gives a new mark to a folio that carries mark 0xFFFF_FFFF. -/
def execSetm (g : BitVec 4) (s : BitVec 10) (st : State) : Outcome :=
  .next (issue (bundleOfOp g s 0x306#10 (some opSetm)) st)

/-- XST (R82): Reads the exchange count and the number in flight. -/
def execXst (g : BitVec 4) (s : BitVec 10) (st : State) : Outcome :=
  .next (issue (bundleOfOp g s 0x307#10 (some opXst)) st)

/-- SIDX (R235): Issues an indexed-reduce command to a stack engine. -/
def execSidx (g : BitVec 4) (s : BitVec 10) (st : State) : Outcome :=
  .next (issue (bundleOfOp g s 0x310#10 (some opSidx)) st)

/-- SRED (R236): Issues a pairwise tree-reduction command. -/
def execSred (g : BitVec 4) (s : BitVec 10) (st : State) : Outcome :=
  .next (issue (bundleOfOp g s 0x311#10 (some opSred)) st)

/-- STOPK (R237): Issues a top-k command. -/
def execStopk (g : BitVec 4) (s : BitVec 10) (st : State) : Outcome :=
  .next (issue (bundleOfOp g s 0x312#10 (some opStopk)) st)

/-- RPFX (R238): Issues a route prefix command that forms per-expert offsets. -/
def execRpfx (g : BitVec 4) (s : BitVec 10) (st : State) : Outcome :=
  .next (issue (bundleOfOp g s 0x313#10 (some opRpfx)) st)

/-- RPRM (R239): Issues an in-place route permutation by leaf exchanges. -/
def execRprm (g : BitVec 4) (s : BitVec 10) (st : State) : Outcome :=
  .next (issue (bundleOfOp g s 0x314#10 (some opRprm)) st)

/-- BCST (R191): Broadcasts carrel bytes into the vector registers of peer cores. -/
def execBcst (g : BitVec 4) (s : BitVec 10) (st : State) : Outcome :=
  .next (issue (bundleOfOp g s 0x315#10 (some opBcst)) st)

/-- ARM (R190): Arms an arrival counter from an arm block. -/
def execArm (g : BitVec 4) (s : BitVec 10) (st : State) : Outcome :=
  .next (issue (bundleOfOp g s 0x316#10 (some opArm)) st)

/-- ECNT (R228): Reads an engine completion counter or the engine status word. -/
def execEcnt (g : BitVec 4) (s : BitVec 10) (st : State) : Outcome :=
  .next (issue (bundleOfOp g s 0x317#10 (some opEcnt)) st)

/-- RADD (R186): Integer add reduction into a gallery target. -/
def execRadd (g : BitVec 4) (s : BitVec 10) (st : State) : Outcome :=
  .next (issue (bundleOfOp g s 0x320#10 (some opRadd)) st)

/-- RMIN (R186): Signed minimum reduction. -/
def execRmin (g : BitVec 4) (s : BitVec 10) (st : State) : Outcome :=
  .next (issue (bundleOfOp g s 0x321#10 (some opRmin)) st)

/-- RMAX (R186): Signed maximum reduction. -/
def execRmax (g : BitVec 4) (s : BitVec 10) (st : State) : Outcome :=
  .next (issue (bundleOfOp g s 0x322#10 (some opRmax)) st)

/-- RAND (R186): AND reduction. -/
def execRand (g : BitVec 4) (s : BitVec 10) (st : State) : Outcome :=
  .next (issue (bundleOfOp g s 0x323#10 (some opRand)) st)

/-- ROR (R186): OR reduction. -/
def execRor (g : BitVec 4) (s : BitVec 10) (st : State) : Outcome :=
  .next (issue (bundleOfOp g s 0x324#10 (some opRor)) st)

/-- RXOR (R186): XOR reduction. -/
def execRxor (g : BitVec 4) (s : BitVec 10) (st : State) : Outcome :=
  .next (issue (bundleOfOp g s 0x325#10 (some opRxor)) st)

/-- RFADD (R186): FP32 addend into a fixed-point cell. -/
def execRfadd (g : BitVec 4) (s : BitVec 10) (st : State) : Outcome :=
  .next (issue (bundleOfOp g s 0x326#10 (some opRfadd)) st)

/-- RRD (R187): Reads a reduction target's phase-start value. -/
def execRrd (g : BitVec 4) (s : BitVec 10) (st : State) : Outcome :=
  .next (issue (bundleOfOp g s 0x327#10 (some opRrd)) st)

/-- RCLR (R187): Clears a reduction target's current value. -/
def execRclr (g : BitVec 4) (s : BitVec 10) (st : State) : Outcome :=
  .next (issue (bundleOfOp g s 0x328#10 (some opRclr)) st)

/-- SEND (R204): Puts 512 bytes into the Dratrix frame starting at this position. -/
def execSend (g : BitVec 4) (s : BitVec 10) (st : State) : Outcome :=
  .next (issue (bundleOfOp g s 0x329#10 (some opSend)) st)

/-- RECV (R205): Returns the frame whose window holds this position. -/
def execRecv (g : BitVec 4) (s : BitVec 10) (st : State) : Outcome :=
  .next (issue (bundleOfOp g s 0x32A#10 (some opRecv)) st)

/-- SENDB (R188): Sends a 64-byte message to a core and context. -/
def execSendb (g : BitVec 4) (s : BitVec 10) (st : State) : Outcome :=
  .next (issue (bundleOfOp g s 0x32B#10 (some opSendb)) st)

/-- RECVB (R188): Removes the oldest message from the mailbox. -/
def execRecvb (g : BitVec 4) (s : BitVec 10) (st : State) : Outcome :=
  .next (issue (bundleOfOp g s 0x32C#10 (some opRecvb)) st)

end Sys2Proof.Machine
end

