-- ==== Sys2Proof/Machine/ExecSys.lean ====
section
/-! DEFINITION. The meanings of the steps of the matrix unit and the system unit (R142 to R151, R275 to R279). -/

namespace Sys2Proof.Machine

/-- FBASE (R146): Sets a feed pipe's base and resets its progress. -/
def execFbase (g : BitVec 4) (s : BitVec 10) (st : State) : Outcome :=
  .next (issue (bundleOfOp g s 0x340#10 (some opFbase)) st)

/-- FSTR (R146): Sets a feed pipe's stride. -/
def execFstr (g : BitVec 4) (s : BitVec 10) (st : State) : Outcome :=
  .next (issue (bundleOfOp g s 0x341#10 (some opFstr)) st)

/-- FCDX (R145): Gives a pipe a codex and validates it. -/
def execFcdx (g : BitVec 4) (s : BitVec 10) (st : State) : Outcome :=
  .next (issue (bundleOfOp g s 0x342#10 (some opFcdx)) st)

/-- FPROG (R146): Sets a feed pipe's progress. -/
def execFprog (g : BitVec 4) (s : BitVec 10) (st : State) : Outcome :=
  .next (issue (bundleOfOp g s 0x343#10 (some opFprog)) st)

/-- PBASE (R146): Sets the push pipe's base and resets its progress. -/
def execPbase (g : BitVec 4) (s : BitVec 10) (st : State) : Outcome :=
  .next (issue (bundleOfOp g s 0x344#10 (some opPbase)) st)

/-- PSTR (R146): Sets the push pipe's stride. -/
def execPstr (g : BitVec 4) (s : BitVec 10) (st : State) : Outcome :=
  .next (issue (bundleOfOp g s 0x345#10 (some opPstr)) st)

/-- ANCH (R146): Sets the anchor A. -/
def execAnch (g : BitVec 4) (s : BitVec 10) (st : State) : Outcome :=
  .next (issue (bundleOfOp g s 0x346#10 (some opAnch)) st)

/-- LIVE (R147): Sets a feed pipe's live count against its codex bound. -/
def execLive (g : BitVec 4) (s : BitVec 10) (st : State) : Outcome :=
  .next (issue (bundleOfOp g s 0x347#10 (some opLive)) st)

/-- RESID (R148): Writes a course's residency record. -/
def execResid (g : BitVec 4) (s : BitVec 10) (st : State) : Outcome :=
  .next (issue (bundleOfOp g s 0x348#10 (some opResid)) st)

/-- SFST (R150): Reads the flags and residues of a sum-file entry. -/
def execSfst (g : BitVec 4) (s : BitVec 10) (st : State) : Outcome :=
  .next (issue (bundleOfOp g s 0x349#10 (some opSfst)) st)

/-- GMODE (R149): Switches the array between forward and gradient mode. -/
def execGmode (g : BitVec 4) (s : BitVec 10) (st : State) : Outcome :=
  .next (issue (bundleOfOp g s 0x34A#10 (some opGmode)) st)

/-- MXST (R150): Reads one array status item. -/
def execMxst (g : BitVec 4) (s : BitVec 10) (st : State) : Outcome :=
  .next (issue (bundleOfOp g s 0x34B#10 (some opMxst)) st)

/-- TREC_READ (R278): Reads word t of the trap record. -/
def execTrecRead (g : BitVec 4) (s : BitVec 10) (st : State) : Outcome :=
  .next (issue (bundleOfOp g s 0x350#10 (some opTrecRead)) st)

/-- TREC_RESUME (R275): With t all ones, restores the saved state and resumes at the record's resume bundle. -/
def execTrecResume (g : BitVec 4) (s : BitVec 10) (st : State) : Outcome :=
  .next (issue (bundleOfOp g s 0x350#10 (some opTrecResume)) st)

/-- TREC_SKIP (R275): With t all ones minus one, skips the trapped bundle. -/
def execTrecSkip (g : BitVec 4) (s : BitVec 10) (st : State) : Outcome :=
  .next (issue (bundleOfOp g s 0x350#10 (some opTrecSkip)) st)

/-- BUDG (R278): Reads the budget register. -/
def execBudg (g : BitVec 4) (s : BitVec 10) (st : State) : Outcome :=
  .next (issue (bundleOfOp g s 0x351#10 (some opBudg)) st)

/-- GCYC (R278): Reads the group count and the group status word. -/
def execGcyc (g : BitVec 4) (s : BitVec 10) (st : State) : Outcome :=
  .next (issue (bundleOfOp g s 0x352#10 (some opGcyc)) st)

/-- CTX (R279): Reads or writes one item of context state. -/
def execCtx (g : BitVec 4) (s : BitVec 10) (st : State) : Outcome :=
  .next (issue (bundleOfOp g s 0x353#10 (some opCtx)) st)

/-- TRLD (R133): Writes a recipe table entry. -/
def execTrld (g : BitVec 4) (s : BitVec 10) (st : State) : Outcome :=
  .next (issue (bundleOfOp g s 0x354#10 (some opTrld)) st)

/-- SBASE (R88): Sets the spill overflow base and limit. -/
def execSbase (g : BitVec 4) (s : BitVec 10) (st : State) : Outcome :=
  .next (issue (bundleOfOp g s 0x355#10 (some opSbase)) st)

/-- SEED (R278): Replaces the context's seed. -/
def execSeed (g : BitVec 4) (s : BitVec 10) (st : State) : Outcome :=
  .next (issue (bundleOfOp g s 0x356#10 (some opSeed)) st)

/-- LPARM (R10): Reads a launch parameter word. -/
def execLparm (g : BitVec 4) (s : BitVec 10) (st : State) : Outcome :=
  .next (issue (bundleOfOp g s 0x357#10 (some opLparm)) st)

end Sys2Proof.Machine
end

