-- ==== Sys2Proof/Machine/ExecVec.lean ====
section
/-! DEFINITION. The meanings of the steps of the vector units (R74 to R76, R84 to R88, R122 to R138). -/

namespace Sys2Proof.Machine

/-- VLD (R75): Loads 512 contiguous bytes into z. -/
def execVld (g : BitVec 4) (s : BitVec 10) (u : BitVec 1) (st : State) : Outcome :=
  .next (issue (bundleOfOp g s (0x260#10 ||| (u.zeroExtend 10 <<< 4)) (some (opVld (6 + u.toNat)))) st)

/-- VLDP (R75): Loads 512 bytes and post-increments a by b. -/
def execVldp (g : BitVec 4) (s : BitVec 10) (u : BitVec 1) (st : State) : Outcome :=
  .next (issue (bundleOfOp g s (0x261#10 ||| (u.zeroExtend 10 <<< 4)) (some (opVldp (6 + u.toNat)))) st)

/-- VLDS (R75): Strided vector load. -/
def execVlds (g : BitVec 4) (s : BitVec 10) (u : BitVec 1) (st : State) : Outcome :=
  .next (issue (bundleOfOp g s (0x262#10 ||| (u.zeroExtend 10 <<< 4)) (some (opVlds (6 + u.toNat)))) st)

/-- VLDB (R75): Loads 64 bytes replicated into every cluster. -/
def execVldb (g : BitVec 4) (s : BitVec 10) (u : BitVec 1) (st : State) : Outcome :=
  .next (issue (bundleOfOp g s (0x263#10 ||| (u.zeroExtend 10 <<< 4)) (some (opVldb (6 + u.toNat)))) st)

/-- VGAT (R75): Gathers the active lanes through an index register. -/
def execVgat (g : BitVec 4) (s : BitVec 10) (u : BitVec 1) (st : State) : Outcome :=
  .next (issue (bundleOfOp g s (0x264#10 ||| (u.zeroExtend 10 <<< 4)) (some (opVgat (6 + u.toNat)))) st)

/-- VST (R75): Stores the active lanes of d. -/
def execVst (g : BitVec 4) (s : BitVec 10) (u : BitVec 1) (st : State) : Outcome :=
  .next (issue (bundleOfOp g s (0x265#10 ||| (u.zeroExtend 10 <<< 4)) (some (opVst (6 + u.toNat)))) st)

/-- VSTP (R75): Stores and post-increments a. -/
def execVstp (g : BitVec 4) (s : BitVec 10) (u : BitVec 1) (st : State) : Outcome :=
  .next (issue (bundleOfOp g s (0x266#10 ||| (u.zeroExtend 10 <<< 4)) (some (opVstp (6 + u.toNat)))) st)

/-- VSTS (R75): Strided store of the active lanes. -/
def execVsts (g : BitVec 4) (s : BitVec 10) (u : BitVec 1) (st : State) : Outcome :=
  .next (issue (bundleOfOp g s (0x267#10 ||| (u.zeroExtend 10 <<< 4)) (some (opVsts (6 + u.toNat)))) st)

/-- VSCT (R75): Scatters the active lanes through an index register. -/
def execVsct (g : BitVec 4) (s : BitVec 10) (u : BitVec 1) (st : State) : Outcome :=
  .next (issue (bundleOfOp g s (0x268#10 ||| (u.zeroExtend 10 <<< 4)) (some (opVsct (6 + u.toNat)))) st)

/-- VSPL (R86): Starts a spill burst of a run of vector registers. -/
def execVspl (g : BitVec 4) (s : BitVec 10) (u : BitVec 1) (st : State) : Outcome :=
  .next (issue (bundleOfOp g s (0x269#10 ||| (u.zeroExtend 10 <<< 4)) (some (opVspl (6 + u.toNat)))) st)

/-- VFIL (R86): Starts a fill burst of a run of vector registers. -/
def execVfil (g : BitVec 4) (s : BitVec 10) (u : BitVec 1) (st : State) : Outcome :=
  .next (issue (bundleOfOp g s (0x26A#10 ||| (u.zeroExtend 10 <<< 4)) (some (opVfil (6 + u.toNat)))) st)

/-- FADD (R126): FP32 a + t per lane. -/
def execFadd (g : BitVec 4) (s : BitVec 10) (u : BitVec 1) (st : State) : Outcome :=
  .next (issue (bundleOfOp g s (0x280#10 ||| (u.zeroExtend 10 <<< 5)) (some (opFadd (8 + 2 * u.toNat)))) st)

/-- FSUB (R126): FP32 a - t per lane. -/
def execFsub (g : BitVec 4) (s : BitVec 10) (u : BitVec 1) (st : State) : Outcome :=
  .next (issue (bundleOfOp g s (0x281#10 ||| (u.zeroExtend 10 <<< 5)) (some (opFsub (8 + 2 * u.toNat)))) st)

/-- FMUL (R126): FP32 a × t per lane. -/
def execFmul (g : BitVec 4) (s : BitVec 10) (u : BitVec 1) (st : State) : Outcome :=
  .next (issue (bundleOfOp g s (0x282#10 ||| (u.zeroExtend 10 <<< 5)) (some (opFmul (8 + 2 * u.toNat)))) st)

/-- FFMA (R126): FP32 a × b + t with one rounding. -/
def execFfma (g : BitVec 4) (s : BitVec 10) (u : BitVec 1) (st : State) : Outcome :=
  .next (issue (bundleOfOp g s (0x283#10 ||| (u.zeroExtend 10 <<< 5)) (some (opFfma (8 + 2 * u.toNat)))) st)

/-- FMIN (R126): FP32 minimum per lane. -/
def execFmin (g : BitVec 4) (s : BitVec 10) (u : BitVec 1) (st : State) : Outcome :=
  .next (issue (bundleOfOp g s (0x284#10 ||| (u.zeroExtend 10 <<< 5)) (some (opFmin (8 + 2 * u.toNat)))) st)

/-- FMAX (R126): FP32 maximum per lane. -/
def execFmax (g : BitVec 4) (s : BitVec 10) (u : BitVec 1) (st : State) : Outcome :=
  .next (issue (bundleOfOp g s (0x285#10 ||| (u.zeroExtend 10 <<< 5)) (some (opFmax (8 + 2 * u.toNat)))) st)

/-- FABS (R126): Clears the sign bit of each lane. -/
def execFabs (g : BitVec 4) (s : BitVec 10) (u : BitVec 1) (st : State) : Outcome :=
  .next (issue (bundleOfOp g s (0x286#10 ||| (u.zeroExtend 10 <<< 5)) (some (opFabs (8 + 2 * u.toNat)))) st)

/-- FNEG (R126): Inverts the sign bit of each lane. -/
def execFneg (g : BitVec 4) (s : BitVec 10) (u : BitVec 1) (st : State) : Outcome :=
  .next (issue (bundleOfOp g s (0x287#10 ||| (u.zeroExtend 10 <<< 5)) (some (opFneg (8 + 2 * u.toNat)))) st)

/-- FCMP (R127): FP32 compare under the condition in c, giving a lane mask. -/
def execFcmp (g : BitVec 4) (s : BitVec 10) (u : BitVec 1) (st : State) : Outcome :=
  .next (issue (bundleOfOp g s (0x288#10 ||| (u.zeroExtend 10 <<< 5)) (some (opFcmp (8 + 2 * u.toNat)))) st)

/-- FCVTI (R98): FP32 to i32 in the mode c[1:0]. -/
def execFcvti (g : BitVec 4) (s : BitVec 10) (u : BitVec 1) (st : State) : Outcome :=
  .next (issue (bundleOfOp g s (0x289#10 ||| (u.zeroExtend 10 <<< 5)) (some (opFcvti (8 + 2 * u.toNat)))) st)

/-- ICVTF (R98): i32 to FP32 with RNE. -/
def execIcvtf (g : BitVec 4) (s : BitVec 10) (u : BitVec 1) (st : State) : Outcome :=
  .next (issue (bundleOfOp g s (0x28A#10 ||| (u.zeroExtend 10 <<< 5)) (some (opIcvtf (8 + 2 * u.toNat)))) st)

/-- FSEL (R126): Per lane, selects a where b is nonzero, else t. -/
def execFsel (g : BitVec 4) (s : BitVec 10) (u : BitVec 1) (st : State) : Outcome :=
  .next (issue (bundleOfOp g s (0x28B#10 ||| (u.zeroExtend 10 <<< 5)) (some (opFsel (8 + 2 * u.toNat)))) st)

/-- FRND (R98): Rounds to an integral FP32 value in mode c. -/
def execFrnd (g : BitVec 4) (s : BitVec 10) (u : BitVec 1) (st : State) : Outcome :=
  .next (issue (bundleOfOp g s (0x28C#10 ||| (u.zeroExtend 10 <<< 5)) (some (opFrnd (8 + 2 * u.toNat)))) st)

/-- IADD (R128): i32 add mod 2^32. -/
def execIadd (g : BitVec 4) (s : BitVec 10) (u : BitVec 1) (st : State) : Outcome :=
  .next (issue (bundleOfOp g s (0x290#10 ||| (u.zeroExtend 10 <<< 5)) (some (opIadd (8 + 2 * u.toNat)))) st)

/-- ISUB (R128): i32 subtract. -/
def execIsub (g : BitVec 4) (s : BitVec 10) (u : BitVec 1) (st : State) : Outcome :=
  .next (issue (bundleOfOp g s (0x291#10 ||| (u.zeroExtend 10 <<< 5)) (some (opIsub (8 + 2 * u.toNat)))) st)

/-- IMUL (R128): i32 multiply, low 32 bits. -/
def execImul (g : BitVec 4) (s : BitVec 10) (u : BitVec 1) (st : State) : Outcome :=
  .next (issue (bundleOfOp g s (0x292#10 ||| (u.zeroExtend 10 <<< 5)) (some (opImul (8 + 2 * u.toNat)))) st)

/-- VAND (R128): Lanewise AND. -/
def execVand (g : BitVec 4) (s : BitVec 10) (u : BitVec 1) (st : State) : Outcome :=
  .next (issue (bundleOfOp g s (0x293#10 ||| (u.zeroExtend 10 <<< 5)) (some (opVand (8 + 2 * u.toNat)))) st)

/-- VOR (R128): Lanewise OR. -/
def execVor (g : BitVec 4) (s : BitVec 10) (u : BitVec 1) (st : State) : Outcome :=
  .next (issue (bundleOfOp g s (0x294#10 ||| (u.zeroExtend 10 <<< 5)) (some (opVor (8 + 2 * u.toNat)))) st)

/-- VXOR (R128): Lanewise XOR. -/
def execVxor (g : BitVec 4) (s : BitVec 10) (u : BitVec 1) (st : State) : Outcome :=
  .next (issue (bundleOfOp g s (0x295#10 ||| (u.zeroExtend 10 <<< 5)) (some (opVxor (8 + 2 * u.toNat)))) st)

/-- VSHL (R128): Lanewise shift left. -/
def execVshl (g : BitVec 4) (s : BitVec 10) (u : BitVec 1) (st : State) : Outcome :=
  .next (issue (bundleOfOp g s (0x296#10 ||| (u.zeroExtend 10 <<< 5)) (some (opVshl (8 + 2 * u.toNat)))) st)

/-- VSHR (R128): Lanewise logical shift right. -/
def execVshr (g : BitVec 4) (s : BitVec 10) (u : BitVec 1) (st : State) : Outcome :=
  .next (issue (bundleOfOp g s (0x297#10 ||| (u.zeroExtend 10 <<< 5)) (some (opVshr (8 + 2 * u.toNat)))) st)

/-- VSAR (R128): Lanewise arithmetic shift right. -/
def execVsar (g : BitVec 4) (s : BitVec 10) (u : BitVec 1) (st : State) : Outcome :=
  .next (issue (bundleOfOp g s (0x298#10 ||| (u.zeroExtend 10 <<< 5)) (some (opVsar (8 + 2 * u.toNat)))) st)

/-- IMIN (R128): Signed i32 minimum. -/
def execImin (g : BitVec 4) (s : BitVec 10) (u : BitVec 1) (st : State) : Outcome :=
  .next (issue (bundleOfOp g s (0x299#10 ||| (u.zeroExtend 10 <<< 5)) (some (opImin (8 + 2 * u.toNat)))) st)

/-- IMAX (R128): Signed i32 maximum. -/
def execImax (g : BitVec 4) (s : BitVec 10) (u : BitVec 1) (st : State) : Outcome :=
  .next (issue (bundleOfOp g s (0x29A#10 ||| (u.zeroExtend 10 <<< 5)) (some (opImax (8 + 2 * u.toNat)))) st)

/-- ICMP (R128): i32 compare under the condition in c, giving a lane mask. -/
def execIcmp (g : BitVec 4) (s : BitVec 10) (u : BitVec 1) (st : State) : Outcome :=
  .next (issue (bundleOfOp g s (0x29B#10 ||| (u.zeroExtend 10 <<< 5)) (some (opIcmp (8 + 2 * u.toNat)))) st)

/-- LBC (R129): Broadcasts one lane, globally or within each cluster. -/
def execLbc (g : BitVec 4) (s : BitVec 10) (u : BitVec 1) (st : State) : Outcome :=
  .next (issue (bundleOfOp g s (0x29C#10 ||| (u.zeroExtend 10 <<< 5)) (some (opLbc (8 + 2 * u.toNat)))) st)

/-- LPERM (R129): Permutes lanes within each cluster. -/
def execLperm (g : BitVec 4) (s : BitVec 10) (u : BitVec 1) (st : State) : Outcome :=
  .next (issue (bundleOfOp g s (0x29D#10 ||| (u.zeroExtend 10 <<< 5)) (some (opLperm (8 + 2 * u.toNat)))) st)

/-- XCL (R129): Rotates whole clusters. -/
def execXcl (g : BitVec 4) (s : BitVec 10) (u : BitVec 1) (st : State) : Outcome :=
  .next (issue (bundleOfOp g s (0x29E#10 ||| (u.zeroExtend 10 <<< 5)) (some (opXcl (8 + 2 * u.toNat)))) st)

/-- LRED (R130): Reduces the active lanes within each cluster. -/
def execLred (g : BitVec 4) (s : BitVec 10) (u : BitVec 1) (st : State) : Outcome :=
  .next (issue (bundleOfOp g s (0x29F#10 ||| (u.zeroExtend 10 <<< 5)) (some (opLred (8 + 2 * u.toNat)))) st)

/-- VT_TRI (R131): Runs three chained stages of recipe i per lane, landing at +12. -/
def execVtTri (g : BitVec 4) (s : BitVec 10) (i : BitVec 4) (st : State) : Outcome :=
  .next (issue (bundleOfOp g s (0x2C0#10 ||| i.zeroExtend 10) (some (opVtTri i.toNat))) st)

/-- RCPA (R116): 12-bit reciprocal approximation. -/
def execRcpa (g : BitVec 4) (s : BitVec 10) (st : State) : Outcome :=
  .next (issue (bundleOfOp g s 0x2D0#10 (some opRcpa)) st)

/-- RSQA (R116): 12-bit reciprocal square root. -/
def execRsqa (g : BitVec 4) (s : BitVec 10) (st : State) : Outcome :=
  .next (issue (bundleOfOp g s 0x2D1#10 (some opRsqa)) st)

/-- RCPN (R117): Newton step for the reciprocal. -/
def execRcpn (g : BitVec 4) (s : BitVec 10) (st : State) : Outcome :=
  .next (issue (bundleOfOp g s 0x2D2#10 (some opRcpn)) st)

/-- RSQN (R117): Newton step for the reciprocal square root. -/
def execRsqn (g : BitVec 4) (s : BitVec 10) (st : State) : Outcome :=
  .next (issue (bundleOfOp g s 0x2D3#10 (some opRsqn)) st)

/-- EXP2A (R118): 2^t to 12 bits. -/
def execExp2a (g : BitVec 4) (s : BitVec 10) (st : State) : Outcome :=
  .next (issue (bundleOfOp g s 0x2D4#10 (some opExp2a)) st)

/-- LOG2A (R118): log2 t to 12 bits. -/
def execLog2a (g : BitVec 4) (s : BitVec 10) (st : State) : Outcome :=
  .next (issue (bundleOfOp g s 0x2D5#10 (some opLog2a)) st)

/-- FSQRT (R118): Correctly rounded square root. -/
def execFsqrt (g : BitVec 4) (s : BitVec 10) (st : State) : Outcome :=
  .next (issue (bundleOfOp g s 0x2D6#10 (some opFsqrt)) st)

/-- FDIV (R118): Correctly rounded division. -/
def execFdiv (g : BitVec 4) (s : BitVec 10) (st : State) : Outcome :=
  .next (issue (bundleOfOp g s 0x2D7#10 (some opFdiv)) st)

/-- FSCL (R118): a × 2^n. -/
def execFscl (g : BitVec 4) (s : BitVec 10) (st : State) : Outcome :=
  .next (issue (bundleOfOp g s 0x2D8#10 (some opFscl)) st)

/-- FEXP (R118): Unbiased exponent as i32. -/
def execFexp (g : BitVec 4) (s : BitVec 10) (st : State) : Outcome :=
  .next (issue (bundleOfOp g s 0x2D9#10 (some opFexp)) st)

/-- BMAX (R107): Chooses E9 block scales and counts. -/
def execBmax (g : BitVec 4) (s : BitVec 10) (st : State) : Outcome :=
  .next (issue (bundleOfOp g s 0x2E0#10 (some opBmax)) st)

/-- QNT (R108): Quantises FP32 to K8 at the block scales, with underflow counts. -/
def execQnt (g : BitVec 4) (s : BitVec 10) (st : State) : Outcome :=
  .next (issue (bundleOfOp g s 0x2E1#10 (some opQnt)) st)

/-- DQT (R136): Dequantises packed elements to FP32. -/
def execDqt (g : BitVec 4) (s : BitVec 10) (st : State) : Outcome :=
  .next (issue (bundleOfOp g s 0x2E2#10 (some opDqt)) st)

/-- CVB (R136): Converts FP32 to B16. -/
def execCvb (g : BitVec 4) (s : BitVec 10) (st : State) : Outcome :=
  .next (issue (bundleOfOp g s 0x2E3#10 (some opCvb)) st)

/-- CVF (R136): Converts B16 to FP32. -/
def execCvf (g : BitVec 4) (s : BitVec 10) (st : State) : Outcome :=
  .next (issue (bundleOfOp g s 0x2E4#10 (some opCvf)) st)

/-- CVSB (R137): Converts FP32 to signed 8-bit integers at the block scales. -/
def execCvsb (g : BitVec 4) (s : BitVec 10) (st : State) : Outcome :=
  .next (issue (bundleOfOp g s 0x2E5#10 (some opCvsb)) st)

/-- CVUB (R137): Converts FP32 to unsigned 8-bit integers at the block scales. -/
def execCvub (g : BitVec 4) (s : BitVec 10) (st : State) : Outcome :=
  .next (issue (bundleOfOp g s 0x2E6#10 (some opCvub)) st)

/-- FRET (R138): Turns expert identifiers into fret-plane words and per-course counts. -/
def execFret (g : BitVec 4) (s : BitVec 10) (st : State) : Outcome :=
  .next (issue (bundleOfOp g s 0x2E7#10 (some opFret)) st)

/-- PACK (R136): Clamps and packs i32 into sb or ub. -/
def execPack (g : BitVec 4) (s : BitVec 10) (st : State) : Outcome :=
  .next (issue (bundleOfOp g s 0x2E8#10 (some opPack)) st)

/-- UNPK (R136): Unpacks sb or ub into i32. -/
def execUnpk (g : BitVec 4) (s : BitVec 10) (st : State) : Outcome :=
  .next (issue (bundleOfOp g s 0x2E9#10 (some opUnpk)) st)

/-- VTAG (R136): Retags a value. -/
def execVtag (g : BitVec 4) (s : BitVec 10) (st : State) : Outcome :=
  .next (issue (bundleOfOp g s 0x2EA#10 (some opVtag)) st)

end Sys2Proof.Machine
end

