-- ==== Sys2Proof/Machine/ExecXzgl.lean ====
section
/-! DEFINITION. The Xzgl instructions (R242, R243, R251, R262, R264 to R270, R286). -/

namespace Sys2Proof.Machine

/-- An Xzgl instruction (R264): illegal below machine mode; otherwise its effect gives rd, and the pc moves past the word. -/
def xzgl (i : Instr) (d : BitVec 5) (f : State → CC → Except (Nat × BitVec 64) (State × BitVec 64)) (s : State) : Outcome :=
  ccRun (fun s x =>
    if !x.machine then ccIllegal ((xzglOf i).getD 0)
    else do
      let (s', v) ← f s x
      return (s', { (s'.cc s.ccActor).wx d.toNat v with pc := x.pc + 4 })) s

/-- ZLAUNCH (R265). -/
def execZlaunch (s d : BitVec 5) (st : State) : Outcome :=
  xzgl (.zlaunch s d) d (fun st x => .ok (st.zlaunch (x.rx s.toNat) st.ccActor)) st

/-- ZKICK (R242, R243): rs1[63:12] is ignored. -/
def execZkick (t s : BitVec 5) (st : State) : Outcome :=
  xzgl (.zkick t s) 0 (fun st x =>
    let n := (x.rx s.toNat).toNat % 4096
    .ok (if (x.rx t.toNat).getLsbD 0 then st.kick n else st.unkick n, 0)) st

/-- ZSCAN (R242). -/
def execZscan (s d : BitVec 5) (st : State) : Outcome :=
  xzgl (.zscan s d) d (fun st x => .ok (st, st.ctl.scan (x.rx s.toNat).toNat)) st

/-- ZCANCEL (R266). -/
def execZcancel (t s d : BitVec 5) (st : State) : Outcome :=
  xzgl (.zcancel t s d) d (fun st x =>
    let lvl := x.rx t.toNat
    if 3 < lvl.toNat then .ok (st, BitVec.allOnes 64)
    else
      let (st', n) := st.cancel lvl.toNat (x.rx s.toNat)
      .ok (st', BitVec.ofNat 64 n)) st

/-- ZPREEMPT_HALT (R267): the word is also that of the resume; rs1[11] selects the form. -/
def execZpreemptHalt (t s d : BitVec 5) (st : State) : Outcome :=
  xzgl (.zpreemptHalt t s d) d (fun st x => .ok (st.zpreempt (x.rx s.toNat) (x.rx t.toNat))) st

/-- ZPREEMPT_RESUME (R286): the word is also that of the halt; rs1[11] selects the form. -/
def execZpreemptResume (t s d : BitVec 5) (st : State) : Outcome :=
  xzgl (.zpreemptResume t s d) d (fun st x => .ok (st.zpreempt (x.rx s.toNat) (x.rx t.toNat))) st

/-- ZRESET (R268). -/
def execZreset (s d : BitVec 5) (st : State) : Outcome :=
  xzgl (.zreset s d) d (fun st x => .ok (st.zreset (x.rx s.toNat))) st

/-- Whether `n` bytes at an aligned address lie in the control complex's SRAM. -/
def inSram (a : BitVec 64) (n align : Nat) : Bool :=
  a.toNat % align == 0 && decide (0x40000000 ≤ a.toNat ∧ a.toNat + n ≤ 0x40100000)

/-- ZJRNL (R242, R262). -/
def execZjrnl (s d : BitVec 5) (st : State) : Outcome :=
  xzgl (.zjrnl s d) d (fun st x =>
    let a := x.rx s.toNat
    if !inSram a 24 8 then .error (5, a)
    else .ok (st.journal ((List.range 24).map fun i => Memory.read st.mem.sram (a.toNat + i)))) st

/-- ZCOLO (R251). -/
def execZcolo (t s d : BitVec 5) (st : State) : Outcome :=
  xzgl (.zcolo t s d) d (fun st x => .ok (st, st.colo (x.rx s.toNat) (x.rx t.toNat))) st

/-- ZBUDGET (R269, R277). -/
def execZbudget (t s d : BitVec 5) (st : State) : Outcome :=
  xzgl (.zbudget t s d) d (fun st x => .ok (st.zbudget (x.rx s.toNat) (x.rx t.toNat))) st

/-- ZFENCE (R270): a signal is chained in one cycle (R258), so none is being chained now. -/
def execZfence (t s d : BitVec 5) (st : State) : Outcome :=
  xzgl (.zfence t s d) d (fun st x =>
    let q := x.rx s.toNat
    let a := x.rx t.toNat
    if 256 ≤ q.toNat then .ok (st, BitVec.allOnes 64)
    else if !inSram a 64 64 then .error (7, a)
    else
      let y := st.queue (q.extractLsb' 0 8)
      .ok (st.ccPut (cellsOfBytes a.toNat y.hash), y.chained.zeroExtend 64)) st

end Sys2Proof.Machine
end

