-- ==== Sys2Proof/Machine/Dispatch.lean ====
section
/-! DEFINITION. The meaning of every step: one arm for each row of spec/opcode_table.json. -/

namespace Sys2Proof.Machine

/-- One step's meaning. -/
def exec (i : Instr) (s : State) : Host.Outcome State Fault Refusal :=
  match i with
  | .bundleIssue b => Sys2Proof.Machine.execBundleIssue b s
  | .checkpoint b => Sys2Proof.Machine.execCheckpoint b s
  | .move g x d => Sys2Proof.Machine.execMove g x d s
  | .add g x u => Sys2Proof.Machine.execAdd g x u s
  | .sub g x u => Sys2Proof.Machine.execSub g x u s
  | .and g x u => Sys2Proof.Machine.execAnd g x u s
  | .or g x u => Sys2Proof.Machine.execOr g x u s
  | .xor g x u => Sys2Proof.Machine.execXor g x u s
  | .andn g x u => Sys2Proof.Machine.execAndn g x u s
  | .shl g x u => Sys2Proof.Machine.execShl g x u s
  | .shr g x u => Sys2Proof.Machine.execShr g x u s
  | .sar g x u => Sys2Proof.Machine.execSar g x u s
  | .min g x u => Sys2Proof.Machine.execMin g x u s
  | .max g x u => Sys2Proof.Machine.execMax g x u s
  | .minu g x u => Sys2Proof.Machine.execMinu g x u s
  | .maxu g x u => Sys2Proof.Machine.execMaxu g x u s
  | .sel g x u => Sys2Proof.Machine.execSel g x u s
  | .pass g x u => Sys2Proof.Machine.execPass g x u s
  | .hi g x u => Sys2Proof.Machine.execHi g x u s
  | .ceq g x u => Sys2Proof.Machine.execCeq g x u s
  | .cne g x u => Sys2Proof.Machine.execCne g x u s
  | .clt g x u => Sys2Proof.Machine.execClt g x u s
  | .cltu g x u => Sys2Proof.Machine.execCltu g x u s
  | .cle g x u => Sys2Proof.Machine.execCle g x u s
  | .cleu g x u => Sys2Proof.Machine.execCleu g x u s
  | .clz g x u => Sys2Proof.Machine.execClz g x u s
  | .ctz g x u => Sys2Proof.Machine.execCtz g x u s
  | .popc g x u => Sys2Proof.Machine.execPopc g x u s
  | .sx8 g x u => Sys2Proof.Machine.execSx8 g x u s
  | .sx16 g x u => Sys2Proof.Machine.execSx16 g x u s
  | .sx32 g x u => Sys2Proof.Machine.execSx32 g x u s
  | .zx32 g x u => Sys2Proof.Machine.execZx32 g x u s
  | .bext g x u => Sys2Proof.Machine.execBext g x u s
  | .bins g x u => Sys2Proof.Machine.execBins g x u s
  | .adds g x u => Sys2Proof.Machine.execAdds g x u s
  | .mul g x => Sys2Proof.Machine.execMul g x s
  | .mulh g x => Sys2Proof.Machine.execMulh g x s
  | .mulhu g x => Sys2Proof.Machine.execMulhu g x s
  | .div g x => Sys2Proof.Machine.execDiv g x s
  | .divu g x => Sys2Proof.Machine.execDivu g x s
  | .rem g x => Sys2Proof.Machine.execRem g x s
  | .remu g x => Sys2Proof.Machine.execRemu g x s
  | .mix g x => Sys2Proof.Machine.execMix g x s
  | .ld8 g x => Sys2Proof.Machine.execLd8 g x s
  | .ld8u g x => Sys2Proof.Machine.execLd8u g x s
  | .ld16 g x => Sys2Proof.Machine.execLd16 g x s
  | .ld16u g x => Sys2Proof.Machine.execLd16u g x s
  | .ld32 g x => Sys2Proof.Machine.execLd32 g x s
  | .ld32u g x => Sys2Proof.Machine.execLd32u g x s
  | .ld64 g x => Sys2Proof.Machine.execLd64 g x s
  | .st8 g x => Sys2Proof.Machine.execSt8 g x s
  | .st16 g x => Sys2Proof.Machine.execSt16 g x s
  | .st32 g x => Sys2Proof.Machine.execSt32 g x s
  | .st64 g x => Sys2Proof.Machine.execSt64 g x s
  | .cas g x => Sys2Proof.Machine.execCas g x s
  | .ldlive g x => Sys2Proof.Machine.execLdlive g x s
  | .vld g x u => Sys2Proof.Machine.execVld g x u s
  | .vldp g x u => Sys2Proof.Machine.execVldp g x u s
  | .vlds g x u => Sys2Proof.Machine.execVlds g x u s
  | .vldb g x u => Sys2Proof.Machine.execVldb g x u s
  | .vgat g x u => Sys2Proof.Machine.execVgat g x u s
  | .vst g x u => Sys2Proof.Machine.execVst g x u s
  | .vstp g x u => Sys2Proof.Machine.execVstp g x u s
  | .vsts g x u => Sys2Proof.Machine.execVsts g x u s
  | .vsct g x u => Sys2Proof.Machine.execVsct g x u s
  | .vspl g x u => Sys2Proof.Machine.execVspl g x u s
  | .vfil g x u => Sys2Proof.Machine.execVfil g x u s
  | .fadd g x u => Sys2Proof.Machine.execFadd g x u s
  | .fsub g x u => Sys2Proof.Machine.execFsub g x u s
  | .fmul g x u => Sys2Proof.Machine.execFmul g x u s
  | .ffma g x u => Sys2Proof.Machine.execFfma g x u s
  | .fmin g x u => Sys2Proof.Machine.execFmin g x u s
  | .fmax g x u => Sys2Proof.Machine.execFmax g x u s
  | .fabs g x u => Sys2Proof.Machine.execFabs g x u s
  | .fneg g x u => Sys2Proof.Machine.execFneg g x u s
  | .fcmp g x u => Sys2Proof.Machine.execFcmp g x u s
  | .fcvti g x u => Sys2Proof.Machine.execFcvti g x u s
  | .icvtf g x u => Sys2Proof.Machine.execIcvtf g x u s
  | .fsel g x u => Sys2Proof.Machine.execFsel g x u s
  | .frnd g x u => Sys2Proof.Machine.execFrnd g x u s
  | .iadd g x u => Sys2Proof.Machine.execIadd g x u s
  | .isub g x u => Sys2Proof.Machine.execIsub g x u s
  | .imul g x u => Sys2Proof.Machine.execImul g x u s
  | .vand g x u => Sys2Proof.Machine.execVand g x u s
  | .vor g x u => Sys2Proof.Machine.execVor g x u s
  | .vxor g x u => Sys2Proof.Machine.execVxor g x u s
  | .vshl g x u => Sys2Proof.Machine.execVshl g x u s
  | .vshr g x u => Sys2Proof.Machine.execVshr g x u s
  | .vsar g x u => Sys2Proof.Machine.execVsar g x u s
  | .imin g x u => Sys2Proof.Machine.execImin g x u s
  | .imax g x u => Sys2Proof.Machine.execImax g x u s
  | .icmp g x u => Sys2Proof.Machine.execIcmp g x u s
  | .lbc g x u => Sys2Proof.Machine.execLbc g x u s
  | .lperm g x u => Sys2Proof.Machine.execLperm g x u s
  | .xcl g x u => Sys2Proof.Machine.execXcl g x u s
  | .lred g x u => Sys2Proof.Machine.execLred g x u s
  | .vtTri g x r => Sys2Proof.Machine.execVtTri g x r s
  | .rcpa g x => Sys2Proof.Machine.execRcpa g x s
  | .rsqa g x => Sys2Proof.Machine.execRsqa g x s
  | .rcpn g x => Sys2Proof.Machine.execRcpn g x s
  | .rsqn g x => Sys2Proof.Machine.execRsqn g x s
  | .exp2a g x => Sys2Proof.Machine.execExp2a g x s
  | .log2a g x => Sys2Proof.Machine.execLog2a g x s
  | .fsqrt g x => Sys2Proof.Machine.execFsqrt g x s
  | .fdiv g x => Sys2Proof.Machine.execFdiv g x s
  | .fscl g x => Sys2Proof.Machine.execFscl g x s
  | .fexp g x => Sys2Proof.Machine.execFexp g x s
  | .bmax g x => Sys2Proof.Machine.execBmax g x s
  | .qnt g x => Sys2Proof.Machine.execQnt g x s
  | .dqt g x => Sys2Proof.Machine.execDqt g x s
  | .cvb g x => Sys2Proof.Machine.execCvb g x s
  | .cvf g x => Sys2Proof.Machine.execCvf g x s
  | .cvsb g x => Sys2Proof.Machine.execCvsb g x s
  | .cvub g x => Sys2Proof.Machine.execCvub g x s
  | .fret g x => Sys2Proof.Machine.execFret g x s
  | .pack g x => Sys2Proof.Machine.execPack g x s
  | .unpk g x => Sys2Proof.Machine.execUnpk g x s
  | .vtag g x => Sys2Proof.Machine.execVtag g x s
  | .xch g x => Sys2Proof.Machine.execXch g x s
  | .xchc g x => Sys2Proof.Machine.execXchc g x s
  | .xchl g x => Sys2Proof.Machine.execXchl g x s
  | .xchlc g x => Sys2Proof.Machine.execXchlc g x s
  | .mark g x => Sys2Proof.Machine.execMark g x s
  | .vac g x => Sys2Proof.Machine.execVac g x s
  | .setm g x => Sys2Proof.Machine.execSetm g x s
  | .xst g x => Sys2Proof.Machine.execXst g x s
  | .sidx g x => Sys2Proof.Machine.execSidx g x s
  | .sred g x => Sys2Proof.Machine.execSred g x s
  | .stopk g x => Sys2Proof.Machine.execStopk g x s
  | .rpfx g x => Sys2Proof.Machine.execRpfx g x s
  | .rprm g x => Sys2Proof.Machine.execRprm g x s
  | .bcst g x => Sys2Proof.Machine.execBcst g x s
  | .arm g x => Sys2Proof.Machine.execArm g x s
  | .ecnt g x => Sys2Proof.Machine.execEcnt g x s
  | .radd g x => Sys2Proof.Machine.execRadd g x s
  | .rmin g x => Sys2Proof.Machine.execRmin g x s
  | .rmax g x => Sys2Proof.Machine.execRmax g x s
  | .rand g x => Sys2Proof.Machine.execRand g x s
  | .ror g x => Sys2Proof.Machine.execRor g x s
  | .rxor g x => Sys2Proof.Machine.execRxor g x s
  | .rfadd g x => Sys2Proof.Machine.execRfadd g x s
  | .rrd g x => Sys2Proof.Machine.execRrd g x s
  | .rclr g x => Sys2Proof.Machine.execRclr g x s
  | .send g x => Sys2Proof.Machine.execSend g x s
  | .recv g x => Sys2Proof.Machine.execRecv g x s
  | .sendb g x => Sys2Proof.Machine.execSendb g x s
  | .recvb g x => Sys2Proof.Machine.execRecvb g x s
  | .fbase g x => Sys2Proof.Machine.execFbase g x s
  | .fstr g x => Sys2Proof.Machine.execFstr g x s
  | .fcdx g x => Sys2Proof.Machine.execFcdx g x s
  | .fprog g x => Sys2Proof.Machine.execFprog g x s
  | .pbase g x => Sys2Proof.Machine.execPbase g x s
  | .pstr g x => Sys2Proof.Machine.execPstr g x s
  | .anch g x => Sys2Proof.Machine.execAnch g x s
  | .live g x => Sys2Proof.Machine.execLive g x s
  | .resid g x => Sys2Proof.Machine.execResid g x s
  | .sfst g x => Sys2Proof.Machine.execSfst g x s
  | .gmode g x => Sys2Proof.Machine.execGmode g x s
  | .mxst g x => Sys2Proof.Machine.execMxst g x s
  | .trecRead g x => Sys2Proof.Machine.execTrecRead g x s
  | .trecResume g x => Sys2Proof.Machine.execTrecResume g x s
  | .trecSkip g x => Sys2Proof.Machine.execTrecSkip g x s
  | .budg g x => Sys2Proof.Machine.execBudg g x s
  | .gcyc g x => Sys2Proof.Machine.execGcyc g x s
  | .ctx g x => Sys2Proof.Machine.execCtx g x s
  | .trld g x => Sys2Proof.Machine.execTrld g x s
  | .sbase g x => Sys2Proof.Machine.execSbase g x s
  | .seed g x => Sys2Proof.Machine.execSeed g x s
  | .lparm g x => Sys2Proof.Machine.execLparm g x s
  | .nop g => Sys2Proof.Machine.execNop g s
  | .br g o => Sys2Proof.Machine.execBr g o s
  | .call g n o => Sys2Proof.Machine.execCall g n o s
  | .ret g n => Sys2Proof.Machine.execRet g n s
  | .jmpi g n => Sys2Proof.Machine.execJmpi g n s
  | .calli g n m => Sys2Proof.Machine.execCalli g n m s
  | .limm g v => Sys2Proof.Machine.execLimm g v s
  | .limmh g v => Sys2Proof.Machine.execLimmh g v s
  | .loop g k n d x r => Sys2Proof.Machine.execLoop g k n d x r s
  | .loopi g k c d x r => Sys2Proof.Machine.execLoopi g k c d x r s
  | .brk g k => Sys2Proof.Machine.execBrk g k s
  | .mpush g n => Sys2Proof.Machine.execMpush g n s
  | .mpop g => Sys2Proof.Machine.execMpop g s
  | .minv g n => Sys2Proof.Machine.execMinv g n s
  | .minvElse g => Sys2Proof.Machine.execMinvElse g s
  | .brnone g o => Sys2Proof.Machine.execBrnone g o s
  | .brany g o => Sys2Proof.Machine.execBrany g o s
  | .waitEng g e n => Sys2Proof.Machine.execWaitEng g e n s
  | .waitArr g k => Sys2Proof.Machine.execWaitArr g k s
  | .waitXcnt g n => Sys2Proof.Machine.execWaitXcnt g n s
  | .waitWeq g n m => Sys2Proof.Machine.execWaitWeq g n m s
  | .waitWne g n m => Sys2Proof.Machine.execWaitWne g n m s
  | .waitc g n => Sys2Proof.Machine.execWaitc g n s
  | .phaseLaunch g w => Sys2Proof.Machine.execPhaseLaunch g w s
  | .phaseGroup g w => Sys2Proof.Machine.execPhaseGroup g w s
  | .tune g => Sys2Proof.Machine.execTune g s
  | .cfence g => Sys2Proof.Machine.execCfence g s
  | .sfenceAcq g => Sys2Proof.Machine.execSfenceAcq g s
  | .sfenceRel g => Sys2Proof.Machine.execSfenceRel g s
  | .sfenceAcqRel g => Sys2Proof.Machine.execSfenceAcqRel g s
  | .trap g c => Sys2Proof.Machine.execTrap g c s
  | .sysc g x => Sys2Proof.Machine.execSysc g x s
  | .halt g => Sys2Proof.Machine.execHalt g s
  | .yield g => Sys2Proof.Machine.execYield g s
  | .ckend g => Sys2Proof.Machine.execCkend g s
  | .push g c row => Sys2Proof.Machine.execPush g c row s
  | .feed g p e acc => Sys2Proof.Machine.execFeed g p e acc s
  | .feedAbsd g p e acc => Sys2Proof.Machine.execFeedAbsd g p e acc s
  | .feedCmps g p e acc => Sys2Proof.Machine.execFeedCmps g p e acc s
  | .gfeed g p => Sys2Proof.Machine.execGfeed g p s
  | .drain g e => Sys2Proof.Machine.execDrain g e s
  | .gdrain g c k => Sys2Proof.Machine.execGdrain g c k s
  | .clr g e => Sys2Proof.Machine.execClr g e s
  | .gclr g c => Sys2Proof.Machine.execGclr g c s
  | .zlaunch x d => Sys2Proof.Machine.execZlaunch x d s
  | .zkick t x => Sys2Proof.Machine.execZkick t x s
  | .zscan x d => Sys2Proof.Machine.execZscan x d s
  | .zcancel t x d => Sys2Proof.Machine.execZcancel t x d s
  | .zpreemptHalt t x d => Sys2Proof.Machine.execZpreemptHalt t x d s
  | .zpreemptResume t x d => Sys2Proof.Machine.execZpreemptResume t x d s
  | .zreset x d => Sys2Proof.Machine.execZreset x d s
  | .zjrnl x d => Sys2Proof.Machine.execZjrnl x d s
  | .zcolo t x d => Sys2Proof.Machine.execZcolo t x d s
  | .zbudget t x d => Sys2Proof.Machine.execZbudget t x d s
  | .zfence t x d => Sys2Proof.Machine.execZfence t x d s
  | .zctkoLive w => Sys2Proof.Machine.execZctkoLive w s
  | .zjheadWrite w => Sys2Proof.Machine.execZjheadWrite w s
  | .zxinvWrite w => Sys2Proof.Machine.execZxinvWrite w s
  | .ztrapqRead w => Sys2Proof.Machine.execZtrapqRead w s
  | .registerWrite w => Sys2Proof.Machine.execRegisterWrite w s
  | .controlCoreInstruction w => Sys2Proof.Machine.execControlCoreInstruction w s
  | .resultLanding => Sys2Proof.Machine.execResultLanding s
  | .spillRecord => Sys2Proof.Machine.execSpillRecord s
  | .exchangeCompletion => Sys2Proof.Machine.execExchangeCompletion s
  | .engineAcquire => Sys2Proof.Machine.execEngineAcquire s
  | .engineCommandStart => Sys2Proof.Machine.execEngineCommandStart s
  | .engineRelease => Sys2Proof.Machine.execEngineRelease s
  | .broadcastDelivery => Sys2Proof.Machine.execBroadcastDelivery s
  | .reductionAtSlice => Sys2Proof.Machine.execReductionAtSlice s
  | .messageArrival => Sys2Proof.Machine.execMessageArrival s
  | .mergeOverrun => Sys2Proof.Machine.execMergeOverrun s
  | .boundaryComplete => Sys2Proof.Machine.execBoundaryComplete s
  | .beatLanding => Sys2Proof.Machine.execBeatLanding s
  | .rerunCompare => Sys2Proof.Machine.execRerunCompare s
  | .holdRequest => Sys2Proof.Machine.execHoldRequest s
  | .holdRelay => Sys2Proof.Machine.execHoldRelay s
  | .countFreeze => Sys2Proof.Machine.execCountFreeze s
  | .endNotice => Sys2Proof.Machine.execEndNotice s
  | .holdResume => Sys2Proof.Machine.execHoldResume s
  | .stacksHoldRequest => Sys2Proof.Machine.execStacksHoldRequest s
  | .bankPowerGate => Sys2Proof.Machine.execBankPowerGate s
  | .bankWake => Sys2Proof.Machine.execBankWake s
  | .bankAwake => Sys2Proof.Machine.execBankAwake s
  | .tuneDue => Sys2Proof.Machine.execTuneDue s
  | .groupDesync => Sys2Proof.Machine.execGroupDesync s
  | .frameSlot => Sys2Proof.Machine.execFrameSlot s
  | .frameArrival => Sys2Proof.Machine.execFrameArrival s
  | .linkLockLoss => Sys2Proof.Machine.execLinkLockLoss s
  | .packetAtPort => Sys2Proof.Machine.execPacketAtPort s
  | .pageWalk => Sys2Proof.Machine.execPageWalk s
  | .supervisorTrap => Sys2Proof.Machine.execSupervisorTrap s
  | .taskStart => Sys2Proof.Machine.execTaskStart s
  | .waveStart => Sys2Proof.Machine.execWaveStart s
  | .launchComplete => Sys2Proof.Machine.execLaunchComplete s
  | .heldSignalRelease => Sys2Proof.Machine.execHeldSignalRelease s
  | .takeover => Sys2Proof.Machine.execTakeover s
  | .preemptHalt => Sys2Proof.Machine.execPreemptHalt s
  | .imageSave => Sys2Proof.Machine.execImageSave s
  | .coreReset => Sys2Proof.Machine.execCoreReset s
  | .selfTest => Sys2Proof.Machine.execSelfTest s
  | .syscEnqueue => Sys2Proof.Machine.execSyscEnqueue s
  | .syscStatus => Sys2Proof.Machine.execSyscStatus s
  | .syscCancel => Sys2Proof.Machine.execSyscCancel s
  | .syscKick => Sys2Proof.Machine.execSyscKick s
  | .boot => Sys2Proof.Machine.execBoot s
  | .cc3Reboot => Sys2Proof.Machine.execCc3Reboot s
  | .thermalRead => Sys2Proof.Machine.execThermalRead s
  | .emergencyHold => Sys2Proof.Machine.execEmergencyHold s
  | .ptpMessage => Sys2Proof.Machine.execPtpMessage s
  | .fabricImageFetch => Sys2Proof.Machine.execFabricImageFetch s
  | .statusRead => Sys2Proof.Machine.execStatusRead s
  | .imageChunk => Sys2Proof.Machine.execImageChunk s
  | .imageCommit => Sys2Proof.Machine.execImageCommit s
  | .launchRequest => Sys2Proof.Machine.execLaunchRequest s
  | .cancel => Sys2Proof.Machine.execCancel s
  | .groupFormation => Sys2Proof.Machine.execGroupFormation s
  | .groupDissolve => Sys2Proof.Machine.execGroupDissolve s
  | .fuseProgramming => Sys2Proof.Machine.execFuseProgramming s
  | .calloteLine => Sys2Proof.Machine.execCalloteLine s
  | .attestation => Sys2Proof.Machine.execAttestation s
  | .certificateRead => Sys2Proof.Machine.execCertificateRead s
  | .firmwareChunk => Sys2Proof.Machine.execFirmwareChunk s
  | .firmwareCommit => Sys2Proof.Machine.execFirmwareCommit s
  | .calloteLoad => Sys2Proof.Machine.execCalloteLoad s
  | .calloteLaunch => Sys2Proof.Machine.execCalloteLaunch s
  | .calloteBreak => Sys2Proof.Machine.execCalloteBreak s
  | .calloteClear => Sys2Proof.Machine.execCalloteClear s
  | .calloteRun => Sys2Proof.Machine.execCalloteRun s
  | .calloteStep => Sys2Proof.Machine.execCalloteStep s
  | .callotePrint => Sys2Proof.Machine.execCallotePrint s
  | .callotePlace => Sys2Proof.Machine.execCallotePlace s
  | .calloteCycle => Sys2Proof.Machine.execCalloteCycle s
  | .calloteWatch => Sys2Proof.Machine.execCalloteWatch s
  | .calloteGroup => Sys2Proof.Machine.execCalloteGroup s
  | .calloteLat => Sys2Proof.Machine.execCalloteLat s
  | .calloteEnqueue => Sys2Proof.Machine.execCalloteEnqueue s
  | .calloteStart => Sys2Proof.Machine.execCalloteStart s
  | .calloteInject => Sys2Proof.Machine.execCalloteInject s
  | .injectDrift => Sys2Proof.Machine.execInjectDrift s
  | .injectResidue => Sys2Proof.Machine.execInjectResidue s
  | .injectDelay => Sys2Proof.Machine.execInjectDelay s
  | .injectImem => Sys2Proof.Machine.execInjectImem s
  | .standbyError => Sys2Proof.Machine.execStandbyError s
  | .commandEnd => Sys2Proof.Machine.execCommandEnd s
  | .fabricEnqueue => Sys2Proof.Machine.execFabricEnqueue s

end Sys2Proof.Machine
end

