-- ==== Sys2Proof/Machine/Sched.lean ====
section
/-! DEFINITION. Which step comes next (R52, R92, R93, R162, R180, R202, R209, R211, R263, log 8), and the passing of a clock: ends of
tasks, waits, starts, tunes, the count, Callote's stops (R11, R20, R50, R51, R160, R176, R200, R210, R234, R245, R249, R250). -/

namespace Sys2Proof.Machine

/-! ### The step of an event -/

/-- The step that takes an entry of the agenda. -/
def State.stepOf (s : State) : Ev → Instr
  | .land .. | .write .. | .cas .. | .fill .. | .live .. | .recipe .. | .ctxWrite .. | .seed _ | .xst | .ecnt _ | .ctxRead _ | .pipe .. | .codex ..
  | .anchor _ | .mxst _ | .resid .. | .voidTaken _ | .arm .. => .resultLanding
  | .xch .. | .vac _ | .setm .. => .exchangeCompletion
  | .pushRow .. | .feedSum .. | .gfeedSum .. | .clrSum _ | .clrAcc _ => .beatLanding
  | .spill .. => .spillRecord
  | .redux .. => .reductionAtSlice
  | .msg .. => .messageArrival
  | .bcast .. | .bcastDone _ => .broadcastDelivery
  | .engAcquire _ => .engineAcquire
  | .engStart _ => .engineCommandStart
  | .engEnd e => match (s.engine e).cur with | some c => if c.releases then .engineRelease else .commandEnd | none => .commandEnd
  | .engRelease _ => .engineRelease
  | .bankWake _ => .bankWake
  | .bankAwake _ => .bankAwake
  | .walk _ => .pageWalk
  | .supervisor _ => .supervisorTrap
  | .taskStart .. => .taskStart
  | .waveStart .. => .waveStart
  | .overrun _ => .mergeOverrun
  | .boundary _ => .boundaryComplete
  | .launchDone _ => .launchComplete
  | .release => .heldSignalRelease
  | .takeover _ => .takeover
  | .service n _ _ => if n = 1 then .syscEnqueue else if n = 2 then .syscStatus else if n = 3 then .syscCancel else .syscKick
  | .preempt _ => .preemptHalt
  | .imageSave _ => .imageSave
  | .coreReset => .coreReset
  | .selfTest => .selfTest
  | .holdReq .. => .holdRequest
  | .endNotice .. => .endNotice
  | .thermalPeriod => .emergencyHold
  | .rerunCompare => .rerunCompare
  | .arrival .. => .calloteEnqueue

/-! ### Which contexts may issue -/

/-- Whether the context stands at a bundle where Callote stops it (R10, R319); a rerun meets no breakpoint. -/
def State.atBreak (s : State) (c k : Nat) (y : Ctx) : Bool :=
  y.region.stage == 0 && !(s.out.passed.contains (c, k, y.issued, y.pc.toNat)) && s.out.breaks.any fun b =>
    match b with
    | .bundle c' k' n i =>
      c'.toNat == c && k'.toNat == k && n.toNat == s.bundleIdx y y.pc &&
        (match i with | some i => (if (y.regs.loop 0).act then (y.regs.loop 0).iter else 0) == i | none => true)
    | .instr _ _ => false

/-- Whether a control core stands at an instruction where Callote stops it (R245). -/
def State.ccAtBreak (s : State) (n : Nat) (x : CC) : Bool :=
  !(s.out.passed.contains (512 + n, 0, x.done, x.pc.toNat)) && s.out.breaks.any fun b =>
    match b with
    | .bundle .. => false
    | .instr n' i => n'.toNat == n && x.pc == BitVec.ofNat 64 (x.base + 4 * i)

/-- The counts are frozen with a thermal request of this package: free contexts and engines do not issue (R308). -/
def State.thermalStop (s : State) : Bool := s.gs.frozen && s.gs.holds.any fun h => h.cause == 5 && h.peer == 0

/-- Whether the image of the context is being saved: it issues no more (R284). -/
def State.saving (s : State) (c k : Nat) : Bool :=
  s.agenda.any fun p => p.core == c && p.ctx == k && match p.ev with | .imageSave _ => true | _ => false

/-- Whether the schedule lets a context issue in this clock (R200, R211, R218). -/
def State.scheduled (s : State) (y : Ctx) : Bool :=
  if y.timed then
    y.region.stage == 1 || (s.gs.tune != 2 && (!s.gs.frozen || (y.onClock && decide (s.pos y < s.now))))
  else !s.thermalStop

/-- The environment and bundle that a context would issue. -/
def State.would (s : State) (c k : Nat) : Env × Bundle :=
  let b := bundleOfWord (mget (s.core c).imem 0 (s.ctx c k).pc.toNat)
  (bundleEnv s c k b, b)

/-- Whether the next bundle of a context, as it first reaches issue, fails legality or the budget: it does not wait (R18). -/
def State.failsAtOnce (s : State) (c k : Nat) : Bool := let (e, b) := s.would c k; e.atOnce b

/-- Whether a context is ready to issue in this clock (R162): it waits for nothing, or its next bundle traps at once (R18). -/
def State.ready (s : State) (c k : Nat) (y : Ctx) : Bool :=
  y.task.isSome && (y.status == .ready || (y.status.waits && s.failsAtOnce c k)) && decide (y.readyAt ≤ s.clock) && !y.debugStop &&
    !(s.tried.contains (c, k)) && y.region.stage != 3 && s.scheduled y && !(s.saving c k) && !(s.atBreak c k y)

/-- Whether the timed context of a core has used this clock's carrel bank cycle (R66, R92): by a burst's record, or by the bundle that it
has issued. In a cycle whose position is 15 modulo 16 it uses none, although R159 serves such an access in one of the other fifteen. An access
that moves its parts over several cycles, an exchange or a vgat, uses the cycle of its issue alone (DESIGN CHOICE, log 50). -/
def State.bankTaken (s : State) (x : Core) : Bool :=
  x.bank || match x.prim with
    | some (p, _, car) => car && (x.ctx p).timed && decide (s.pos (x.ctx p) % 16 ≠ 15)
    | none => false

/-- The next bundle of a context. -/
def Core.word (x : Core) (k : Nat) : BitVec 256 := mget x.imem 0 (x.ctx k).pc.toNat

/-- The first in ascending number after `last`, cyclically (R162). -/
def nextAfter (last : Nat) (ks : List Nat) : Option Nat :=
  match ks.find? fun k => decide (last < k) with
  | some k => some k
  | none => ks.head?

/-- A context's priority (R162). -/
def Ctx.prio (y : Ctx) : Nat := match y.task with | some t => t.prio.toNat | none => 8

/-- The choice among ready free contexts: the highest priority, those that have yielded behind the others of theirs, then round robin
(R52, R162). -/
def choose (x : Core) (clock last : Nat) (ks : List Nat) : Option Nat :=
  let best := ks.foldl (fun m k => min m (x.ctx k).prio) 8
  let top := ks.filter fun k => (x.ctx k).prio == best
  let fresh := top.filter fun k => (x.ctx k).yieldFor != clock
  nextAfter last (if fresh.isEmpty then top else fresh)

/-- The slots of a bundle that are not empty, 0 to 9 (R93): a beat slot is empty if its operation is nop. -/
def slotsUsed (b : BitVec 256) : List Nat :=
  ((List.range 8).filter fun k => bundleMove b k != 0) ++ (if (bundleBeat b).extractLsb' 24 4 = 0 then [] else [8]) ++
    (if bundleCtl b = 0 then [] else [9])

/-- Whether a bundle that triggers some units, and may hold a carrel access, fits beside the primary one (R162). -/
def fits (prim : BitVec 256) (primUnits : List Nat) (primCarrel : Bool) (b : BitVec 256) (units : List Nat) (carrel : Bool) : Bool :=
  !((slotsUsed b).any fun i => (slotsUsed prim).contains i) && !(units.any fun u => primUnits.contains u) && !(primCarrel && carrel)

/-- Whether the next bundle of a context is held by a rule (R162): such a context is not ready. -/
def State.stuck (s : State) (c k : Nat) : Bool :=
  let (e, b) := s.would c k
  (e.preTrap b).isNone && (e.held b).isSome

/-- Whether the next bundle of a free context waits for a free bank cycle (R92); one that traps at once does not (R18). -/
def State.bankWait (s : State) (c k : Nat) (x : Core) : Bool :=
  let (e, b) := s.would c k
  s.bankTaken x && e.carrel b && !e.atOnce b

/-- The ready free contexts of a core. -/
def State.freeReady (s : State) (c : Nat) (x : Core) : List Nat :=
  (List.range 4).filter fun k => !(x.ctx k).timed && s.ready c k (x.ctx k) && !(s.bankWait c k x)

/-- The context of a core that issues next in this clock (R162). -/
def State.candidate (s : State) (c : Nat) (x : Core) : Option Nat :=
  if x.oos || x.retired || x.full then none
  else
    match x.prim with
    | none =>
      match (List.range 4).find? fun k => (x.ctx k).timed && s.ready c k (x.ctx k) with
      | some k => some k
      | none =>
        let ks := s.freeReady c x
        match x.running with
        | some k => if ks.contains k && (x.ctx k).yieldFor != s.clock then some k else choose x s.clock x.rrPrimary ks
        | none => choose x s.clock x.rrPrimary ks
    | some (p, w, car) =>
      match choose x s.clock x.rrSecond ((s.freeReady c x).filter fun k => k != p) with
      | none => none
      | some k =>
        let (e, b) := s.would c k
        if s.stuck c k || fits w x.primUnits car (x.word k) (e.units b) (e.carrel b) then some k else none

/-- The first core with a context to issue. -/
def State.issuer (s : State) : Option (Nat × Nat) := s.cores.findSome? fun q => (s.candidate q.1 q.2).map fun k => (q.1, k)

/-! ### Control cores -/

/-- Whether a control core executes an instruction now: the one at its pc, or at the vector of the interrupt that it takes first. -/
def State.ccReady (s : State) (n : Nat) (x : CC) : Bool :=
  x.active && !x.stopped && !x.debugStop && decide (x.readyAt ≤ s.clock) && s.ctl.live != some n && !(s.ccAtBreak n x.interrupts)

/-- An event of this moment. -/
def State.event (s : State) (ev : Ev) : State :=
  { s with turn := .event, cause := .due ⟨s.clock, true, 0, 0, 0, false, s.clock, s.free, false, ev⟩ }

/-- What a control core does now: an interrupt is taken first; a bad fetch is a takeover, or CC3's reboot (R263, R309). -/
def State.ccStep (s : State) (n : Nat) : State × Instr :=
  let x := (s.cc n).interrupts
  if x.fetchBad then
    if n = 3 then ({ s with turn := .event, cause := .none }, .cc3Reboot) else (s.event (.takeover n), .takeover)
  else (({ s with turn := .cc n, cause := .none }).setCC n x, decodeRv x.word)

/-! ### The next step -/

/-- Whether an entry of the agenda is due. -/
def State.isDue (s : State) (p : Pending) : Bool := decide (p.due ≤ s.time p.onClock)

/-- Whether the next record of a context's bursts waits for the walk of its page (R291). -/
def State.recordWalks (s : State) (c k : Nat) : Bool :=
  s.agenda.any fun q => s.isDue q && q.core == c && q.ctx == k && match q.ev with
    | .spill _ fill _ _ _ _ pc _ =>
      let e := envAt s c k pc
      (e.missing [e.nextRecord fill]).any fun page => s.walking c k page
    | _ => false

/-- Whether a burst record waits: for the walk of a page (R291), or, a free context's in the carrel, for a free bank cycle, as its bundle
does (R92, log 50): one is taken, or the timed context of the core has yet to use this clock's. -/
def State.recordWaits (s : State) (p : Pending) : Bool :=
  match p.ev with
  | .spill _ fill _ _ _ _ _ _ =>
    decide (p.ctx < 4) && s.recordWalks p.core p.ctx ||
    let x := s.core p.core
    let y := x.ctx p.ctx
    let d := y.regs.spill.depth.toNat - if fill then 512 else 0
    decide (p.ctx < 4) && !y.timed && decide (d < y.regs.spill.cap) &&
      (s.bankTaken x || (x.prim.isNone && (List.range 4).any fun k => (x.ctx k).timed && s.ready p.core k (x.ctx k)) ||
        s.agenda.any fun q => s.isDue q && q.core == p.core && (x.ctx q.ctx).timed && match q.ev with | .spill .. => true | _ => false)
  | _ => false

/-- Whether an entry is an access to a context item, or an arming: these come before what lands beside them (R190, log 53). -/
def Ev.leads : Ev → Bool
  | .ctxRead _ | .ctxWrite .. | .arm .. => true
  | _ => false

/-- Whether a due entry comes before another: what has been due longer comes first, which after a tune of -1 is what the schedule has at the
count that no clock had (R200); then what leads. -/
def State.sooner (s : State) (p q : Pending) : Bool :=
  let late := fun (r : Pending) => s.time r.onClock - r.due
  decide (late q < late p) || (late p == late q && p.ev.leads && !q.ev.leads)

/-- The entry that comes first, among equals by the order of issue. -/
def State.firstDue (s : State) : Option Pending :=
  s.agenda.foldl (fun best p =>
    if s.isDue p && !s.recordWaits p then
      match best with
      | none => some p
      | some q => if s.sooner p q then some p else best
    else best) none

/-- A boundary that completes now (R176, R180). -/
def State.boundaryNow (s : State) : Option (BitVec 64) :=
  s.ctl.launches.findSome? fun q =>
    match q.2.boundary with
    | some b =>
      if decide (b.opened + b.window ≤ s.now) && s.boundaryDone (BitVec.ofNat 64 q.1) b then some (BitVec.ofNat 64 q.1) else none
    | none => none

/-- Callote's watches print what they watch (R194). -/
def State.watched (s : State) (p : Pending) : State :=
  match p.ev with
  | .xch _ a b =>
    if s.out.watches.any fun w => w == .xch (BitVec.ofNat 9 p.core) (BitVec.ofNat 2 p.ctx) then
      s.say sayXch [] [s.count, BitVec.ofNat 64 a.va, BitVec.ofNat 64 b.va]
    else s
  | _ => s

/-- A peer's request for a hold is printed as it arrives (R194). -/
def State.watchedInput (s : State) : Input → State
  | .holdRelay r _ peer _ => s.sayWatch [s.count, r, BitVec.ofNat 64 (peer + 1)]
  | _ => s

/-- A change of the hold is printed. -/
def State.watchHold (s : State) (frozen : Bool) : State :=
  s.sayWatch [s.count, BitVec.ofNat 64 s.clock, if frozen then 1 else 0]

/-- THE NEXT STEP of this clock, with the state in which it is taken; none when the clock is over (log 8). -/
def State.pick (s : State) : Option (State × Instr) :=
  match s.inputs with
  | x :: rest => some ({ s.watchedInput x with inputs := rest, turn := .event, cause := .input x }, x.step)
  | [] =>
  match s.firstDue with
  | some p => some ({ s.watched p with turn := .event, cause := .due p }, s.stepOf p.ev)
  | none =>
  match s.boundaryNow with
  | some l => some (s.event (.boundary l), .boundaryComplete)
  | none =>
  if s.freezes then some ({ s.watchHold true with turn := .event, cause := .none }, .countFreeze)
  else if s.resumes then some ({ s.watchHold false with turn := .event, cause := .none }, .holdResume)
  else
  match s.issuer with
  | some (c, k) => some ({ s with turn := .ctx c k, cause := .none }, decodeBundle ((s.core c).word k))
  | none =>
  match (List.range 4).find? fun n => s.ccReady n (s.cc n) with
  | some n => some (s.ccStep n)
  | none =>
  if !s.gs.frozen && !s.slotPorts.isEmpty then some ({ s with turn := .event, cause := .none }, .frameSlot)
  else none

/-! ### The end of a clock -/

/-- Applies a function to every context. -/
def State.mapCtxs (s : State) (f : Nat → Nat → Ctx → Ctx) : State :=
  { s with cores := s.cores.map fun q => (q.1, { q.2 with ctxs := q.2.ctxs.map fun y => (y.1, f q.1 y.1 y.2) }) }

/-- The contexts of the package. -/
def State.allCtxs (s : State) : List (Nat × Nat × Ctx) := s.cores.flatMap fun q => q.2.ctxs.map fun y => (q.1, y.1, s.ctx q.1 y.1)

/-- Tasks that have halted end when their last exchange has completed (R20). -/
def State.endHalted (s : State) : State :=
  s.allCtxs.foldl (fun s q =>
    if q.2.2.status = .halted ∧ q.2.2.task.isSome ∧ s.xchOwn q.1 q.2.1 = 0 then endTask s q.1 q.2.1 true else s) s

/-- Boundaries that have opened close (R176). -/
def State.closeAll (s : State) : State :=
  s.ctl.launches.foldl (fun s q =>
    match q.2.boundary with
    | some b => if !b.closed ∧ b.opened ≤ s.now then closeBoundary s (BitVec.ofNat 64 q.1) else s
    | none => s) s

/-- A task of the lowest wave on a context starts a free time after the tasks of earlier waves there have ended and the context has become
free for it (R250). -/
def State.postStart (s : State) (l : BitVec 64) (w : Nat × Nat × Nat × Nat) : State :=
  let (t, c, k, n) := w
  let x := s.launch l
  let first := x.waves.all fun v => v.2.1 != c || v.2.2.1 != k || decide (n ≤ v.2.2.2)
  let ended := x.started.all fun v => v.2 != (c, k) || x.gone.contains v.1
  if first && ended && (s.ctx c k).freeFor l && !(s.starting c k) then
    let (d, s) := s.draw
    s.post (s.clock + 1 + d) true c k (if n = 0 then .taskStart l t c k else .waveStart l t c k)
  else s

/-- Starts of the tasks of free launches. -/
def State.postStarts (s : State) : State :=
  s.ctl.launches.foldl (fun s q =>
    if s.out.stage ≠ 3 ∧ q.2.state = 2 ∧ !q.2.cancelled then q.2.waves.foldl (fun s w => s.postStart (BitVec.ofNat 64 q.1) w) s else s) s

/-- The levels of the records that a context's bursts have yet to make (R85, R86): whether one lies in its carve-out. -/
def State.burstInCarrel (s : State) (c k : Nat) (y : Ctx) : Bool :=
  ((s.agenda.filter fun p => p.core == c && p.ctx == k).foldl (fun (acc : Nat × Bool) p =>
    match p.ev with
    | .spill _ fill _ _ _ _ _ _ =>
      if fill then (acc.1 - 512, acc.2 || decide (acc.1 - 512 < y.regs.spill.cap))
      else (acc.1 + 512, acc.2 || decide (acc.1 < y.regs.spill.cap))
    | _ => acc) (y.regs.spill.depth.toNat, false)).2

/-- Whether accesses of a context to a level, loads or stores, land later than `d` cycles from now; exchanges with a part there, and what its
earlier tasks have left in flight, among them (R160, R234), and of the carrel mark, vac and setm (R160); `before` leaves out those issued at
that place or later. -/
def State.pendingAt (s : State) (c k lvl d : Nat) (loads stores : Bool) (before : Option Nat) : Bool :=
  s.agenda.any fun p => p.own c k && (before.all fun n => decide (p.seq < n)) && decide (s.time p.onClock + d < p.due) &&
    (match p.ev with
    | .xch .. => p.ev.places.any fun q => q.1.lvl == lvl
    | .vac _ | .setm .. => lvl == 1 && p.ev.places.any fun q => q.1.lvl == lvl
    | .land 16 .. => lvl == 1 && p.lvl == lvl
    | _ => p.lvl == lvl && (if p.wr then stores else loads))

/-- Whether a wait of the schedule or of a fence is over `d` cycles from now (R51, R160, R175, R234). -/
def State.wakes (s : State) (c k : Nat) (y : Ctx) (d : Nat) : Wait → Bool
  | .waitc v => decide (v.toNat ≤ s.pos y + d)
  | .untilPos n => decide (n ≤ s.pos y + d)
  | .carrel => !(s.pendingAt c k 1 d true true none) && !(s.burstInCarrel c k y)
  | .hbm loads stores n => !(s.pendingAt c k 3 d loads stores (some n))
  | _ => false

/-- The check of a wait in a cycle (R50): the condition, and the poison that the carrel word of weq or wne carries. -/
def State.checks (s : State) (c k : Nat) (y : Ctx) : Wait → Bool × Option (BitVec 6 × BitVec 64 × BitVec 64)
  | .eng e n => (decide (n.toNat ≤ (mget y.ecnt 0 e.toNat).toNat), none)
  | .arr i => ((mget y.arr Arrival.zero i.toNat).done, none)
  | .xcnt n => (decide (n.toNat ≤ y.regs.xcnt.toNat), none)
  | .weq a v => carrelWord a fun w => w == v
  | .wne a v => carrelWord a fun w => w != v
  | _ => (false, none)
where
  /-- The carrel word of a wait, read only in cycles 15 modulo 16. -/
  carrelWord (a : BitVec 64) (f : BitVec 64 → Bool) : Bool × Option (BitVec 6 × BitVec 64 × BitVec 64) :=
    if s.now % 16 ≠ 15 then (false, none)
    else if s.viewPoison c k 1 a.toNat then (true, some (0x0E, BitVec.ofNat 64 (a.toNat / 16 * 16), poisonWord 0 5 false))
    else (f (BitVec.ofNat 64 (s.viewN c k 1 a.toNat 8)), none)

/-- A wait that a trap has interrupted is over once its condition holds; a poisoned carrel word is met when the wait goes on. -/
def State.heldOver (s : State) (c k : Nat) (y : Ctx) (ends : Wait → Bool) : Ctx :=
  match y.held with
  | some w => if ends w && !(s.saving c k) then { y with held := none } else y
  | none => y

/-- Contexts whose wait's check holds in this clock may issue from the next one (R50). -/
def State.checkWaits (s : State) : State :=
  s.mapCtxs fun c k y =>
    let y := s.heldOver c k y fun w => let (ok, t) := s.checks c k y w; ok && t.isNone
    match y.status with
    | .waiting w =>
      let (ok, t) := s.checks c k y w
      if ok && decide (y.readyAt ≤ s.clock) && !(s.saving c k) then
        { y with status := .ready, readyAt := s.clock + 1, ptrap := match t with | some t => some t | none => y.ptrap }
      else y
    | _ => y

/-- Contexts whose wait for a cycle or a landing is over are ready (R51, R160, R175, R234). -/
def State.wakeWaits (s : State) : State :=
  s.mapCtxs fun c k y =>
    let y := s.heldOver c k y (s.wakes c k y 0)
    match y.status with
    | .waiting w => if s.wakes c k y 0 w && decide (y.readyAt ≤ s.clock) && !(s.saving c k) then { y with status := .ready } else y
    | _ => y

/-- An empty bundle (R199): every move slot 0x00_0000, nop in the beat and control slots, a header of zeros. -/
def emptyBundle (b : BitVec 256) : Bool :=
  (List.range 8).all (fun k => bundleMove b k == 0) && beatNop (bundleBeat b) && bundleCtl b &&& 0xFC3FFFFF#32 == 0 &&
    b.extractLsb' 252 4 == 0

/-- Whether a timed context would issue a bundle at the next position that is not empty (R200). -/
def State.issuesNext (s : State) (c k : Nat) (y : Ctx) : Bool :=
  y.timed && !emptyBundle ((s.core c).word k) &&
    (match y.status with
    | .ready => decide (y.readyAt ≤ s.clock + 1)
    | .waiting w => s.wakes c k y 1 w
    | _ => false)

/-- A timed context's empty bundle retires without a clock (R200). -/
def State.retireEmpty (s : State) : State :=
  s.mapCtxs fun c k y =>
    let due := match y.status with
      | .ready => decide (y.readyAt ≤ s.clock + 1)
      | .waiting w => s.wakes c k y 1 w
      | _ => false
    if y.timed && due then
      let (r, pc) := fallFrom y.regs y.pc
      { y with regs := r, pc := pc, status := .ready }
    else y

/-- The tasks that start at the next count start before it, where a tune of -1 takes its clock away: their first bundles, which are empty,
retire with the others' (R8, R200). -/
def State.startEarly (s : State) : State :=
  s.agenda.foldl (fun s p =>
    match p.ev with
    | .taskStart l t c k => if !p.onClock ∧ p.due = s.now + 1 then startTask { s with agenda := s.agenda.filter fun q => q != p } l t c k else s
    | _ => s) s

/-- The group count goes on to the next clock, with the tune that has issued (R195, R200, R211). -/
def State.nextCount (s : State) : State :=
  let gs := s.gs
  if gs.frozen then s
  else if gs.tune = 1 then
    { s with gs := { gs with tune := 2, due := dueOf (gs.offset - 16), offset := gs.offset - 16, applied := satInc gs.applied } }
  else if gs.tune = 3 then
    let early := s.startEarly
    if early.allCtxs.any fun q => early.issuesNext q.1 q.2.1 q.2.2 then
      { s with count := s.count + 1, gs := { gs with tune := 0, refused := satInc gs.refused } }
    else
      { early.retireEmpty with count := s.count + 2
                               gs := { gs with tune := 0, due := dueOf (gs.offset + 16), offset := gs.offset + 16, applied := satInc gs.applied } }
  else { s with count := s.count + 1, gs := { gs with tune := 0 } }

/-- Engines do not run while a thermal hold has the counts frozen (R308). -/
def State.delayEngines (s : State) : State :=
  if s.thermalStop then
    { s with agenda := s.agenda.map fun p =>
        match p.ev with
        | .engEnd _ | .engAcquire _ | .engStart _ | .engRelease _ => if p.onClock then { p with due := p.due + 1 } else p
        | _ => p }
  else s

/-- The next clock: nothing has been tried in it yet, and the power has been measured (R255). -/
def State.nextClock (s : State) : State :=
  { s with clock := s.clock + 1, tried := [], turn := .idle, cause := .none, ctl := { s.ctl with zpmeas := Config.watts (s.clock + 1) }
           cores := s.cores.map fun q => (q.1, { q.2 with prim := none, primUnits := [], full := false, bank := false }) }

/-! ### Callote's stops (R10, R11, R245) -/

/-- A stop is printed. -/
def State.sayStop (s : State) (a b pc : Nat) : State :=
  s.say Machine.sayStop [] [BitVec.ofNat 64 a, BitVec.ofNat 64 b, BitVec.ofNat 64 pc, s.count]

/-- Callote stops a context: a timed one by a group hold, at once in debug pacing (R11, R210); a free one by itself. -/
def State.stopCtx (s : State) (c k : Nat) (y : Ctx) : State :=
  let s := if y.timed then s.requestHold 4 none else s
  let s := if !y.timed || s.pacing then s.setCtx c k { y with debugStop := true } else s
  ({ s with out := { s.out with steps := s.out.steps.filter fun q => !(q.1 == c && q.2.1 == k) } }).sayStop c k (s.bundleIdx y y.pc)

/-- Callote stops a control core, with a group hold (R245); an interrupt that it was to take has been taken. -/
def State.stopCC (s : State) (n : Nat) (x : CC) : State :=
  ((s.requestHold 4 none).setCC n { x with debugStop := true }).sayStop (512 + n) 0 ((x.pc.toNat - x.base) / 4)

/-- Whether Callote stops a context now: before a bundle that it would issue, after its steps, or at the count of `run to`. -/
def State.stopsCtx (s : State) (c k : Nat) (y : Ctx) (all : Bool) : Bool :=
  y.task.isSome && !y.debugStop && y.status != .stopped &&
    (all || (s.out.steps.any fun q => q.1 == c && q.2.1 == k && decide (q.2.2 ≤ y.issued)) ||
      (y.status == .ready && decide (y.readyAt ≤ s.clock) && s.atBreak c k y))

/-- The stops of the clock that begins. -/
def State.stops (s : State) : State :=
  let all := match s.out.till with | some c => decide (c ≤ s.now) | none => false
  let s := if all then { s with out := { s.out with till := none } } else s
  let passed := s.out.passed.filter fun q =>
    if q.1 < 512 then (s.ctx q.1 q.2.1).issued == q.2.2.1 else (s.cc (q.1 - 512)).done == q.2.2.1
  let s := { s with out := { s.out with passed := passed } }
  let s := s.allCtxs.foldl (fun s q => if s.stopsCtx q.1 q.2.1 q.2.2 all then s.stopCtx q.1 q.2.1 q.2.2 else s) s
  (List.range 4).foldl (fun s n =>
    let x := s.cc n
    if x.active && !x.stopped && !x.debugStop && (all || (decide (x.readyAt ≤ s.clock) && s.ccAtBreak n x.interrupts)) then
      s.stopCC n (if all then x else x.interrupts) else s) s

/-- Requests for holds that this package has made in the clock are printed (R194). -/
def State.watchRequests (s : State) : State :=
  s.gs.holds.foldl (fun s h => if h.clock = s.clock ∧ h.peer = 0 then
    s.sayWatch [s.count, h.cause.zeroExtend 64, BitVec.ofNat 64 h.count] else s) s

/-- The signatures of open regions take what has landed in the clock (R217). -/
def State.flushRegions (s : State) : State :=
  s.mapCtxs fun _ _ y => if y.region.isOpen then { y with region := y.region.flush } else y

/-- The records of a burst that waits for a bank cycle come a cycle later, one by one as before (R86, R92). -/
def State.delayRecords (s : State) : State :=
  let waiting := s.agenda.filterMap fun p =>
    match p.ev with
    | .spill f .. => if s.isDue p && s.recordWaits p then some (p.core, p.ctx, f) else none
    | _ => none
  if waiting.isEmpty then s
  else
    { s with agenda := s.agenda.map fun p =>
        match p.ev with
        | .spill f .. => if waiting.contains (p.core, p.ctx, f) then { p with due := p.due + 1, stated := p.stated + 1 } else p
        | _ => p }

/-- Whether a clock counts among a launch's hold cycles (R259): the count stands, and some request that is not Callote's is not over. -/
def State.holdCounts (s : State) : Bool :=
  s.gs.frozen && s.gs.holds.any fun h =>
    !h.stop && decide (h.clock ≤ s.clock) && match h.doneAt with | some t => decide (s.clock < t) | none => true

/-- The hold cycles of the launches that have begun and are running (R259). -/
def State.countHold (s : State) : State :=
  if !s.holdCounts then s
  else
    { s with ctl := { s.ctl with launches := s.ctl.launches.map fun q =>
        (q.1, if q.2.state = 2 ∧ (if q.2.timed then decide (q.2.t0 ≤ s.now) else !q.2.started.isEmpty)
          then { q.2 with holdCycles := min 0xFFFFFFFF (q.2.holdCycles + 1) } else q.2) } }

/-- THE PASSING OF A CLOCK. -/
def State.tick (s : State) : State :=
  ((s.watchRequests.countHold.flushRegions.delayRecords.endHalted.closeAll.postStarts.checkWaits.delayEngines.nextCount.nextClock).wakeWaits).stops

/-! ### Placing an instruction -/

/-- The launch whose task runs a placed bundle. -/
def placedLaunch : Launch := { launchZero with timed := true, state := 2, tasks := 1, placement := [(0, 0)], budget := 4096 }

/-- The context that runs a placed bundle: context 0 of core 0, a free context of a timed launch. -/
def placedCtx (y : Ctx) : Ctx :=
  { y with task := some ⟨1, 0, false, 7, 0⟩, status := .ready, readyAt := 0, pc := 0, debugStop := false, ptrap := none, region := Region.zero
           regs := { y.regs with budget := 4096 } }

/-- Nothing else comes first. -/
def State.quiet (s : State) : State :=
  { s with inputs := [], agenda := [], tried := [], cores := [], cause := .none
           gs := { s.gs with frozen := false, holds := [], tune := 0 }
           out := { s.out with breaks := [] }
           ctl := { s.ctl with launches := [(1, placedLaunch)], live := none } }

/-- A bundle stands where the core fetches next. -/
def State.placeBundle (s : State) (b : BitVec 256) : State :=
  let x := { s.core 0 with imem := mput (s.core 0).imem 0 b, imemBad := [], prim := none, primUnits := [], full := false, bank := false
                           oos := false, retired := false, running := none }
  let x := { x with ctxs := [(0, placedCtx (x.ctx 0))] }
  { s.quiet with cores := [(0, x)], turn := .ctx 0 0 }

/-- A control-core instruction stands where control core 0 fetches next. -/
def State.placeRv (s : State) (w : BitVec 32) : State :=
  let x := { s.cc 0 with imem := Memory.writeAll (s.cc 0).imem (cellsOf 0 4 w.toNat), imemSize := max 4 (s.cc 0).imemSize, imemBad := [], pc := 0
                         machine := true, active := true, stopped := false, debugStop := false, readyAt := 0, trapq := [], csr := [] }
  ({ s.quiet with turn := .cc 0 }).setCC 0 x

end Sys2Proof.Machine
end

