-- ==== Sys2Proof/Machine/Step.lean ====
section
/-! DEFINITION. One step of the package: the next step of this clock, or, when there is none, the next clock (log 8); and the state
that fetches a given word next. -/

namespace Sys2Proof.Machine

/-- One step. -/
def step (s : State) : Host.Outcome State Fault Refusal :=
  match s.pick with
  | some (s', i) => exec i s'
  | none => .next s.tick

/-- The state whose next step fetches and runs the instruction of a table word: a move or control word in the bundle that holds only
that slot, a control-core word in the instruction memory of CC0. -/
def State.withFetchWord (s : State) (nbits w : Nat) : State :=
  if nbits = 24 then s.placeBundle (bundleOfMove (BitVec.ofNat 24 w))
  else if nbits = 32 then
    if isRvWord (BitVec.ofNat 32 w) then s.placeRv (BitVec.ofNat 32 w) else s.placeBundle (bundleOfCtl (BitVec.ofNat 32 w))
  else s

end Sys2Proof.Machine
end

