-- ==== Sys2Proof/Safety.lean ====
section
/-! DEFINITION. What statements about the machine are said in: a bundle that comes to issue (R29, R31, R32, R63, R64), the state after
a bundle has committed (R29, R63, R162), and the invariants of the package. -/

namespace Sys2Proof.Machine

/-- The environment of the only slot of a bundle of context `k` of core `c`, `slot` being that slot. -/
def State.env (s : State) (c k slot : Nat) : Env :=
  { s := s, c := c, k := k, y := s.ctx c k, r := (s.ctx c k).regs, limm := 0, pc := (s.ctx c k).pc, slot := slot }

/-- The value of a source on a scalar bus (R24), as the context's next bundle reads it. -/
def State.src (s : State) (c k : Nat) (n : BitVec 10) : SVal := (s.env c k 0).scalar n
/-- The value of a source on a vector bus (R24). -/
def State.vsrc (s : State) (c k : Nat) (n : BitVec 10) : VVal := (s.env c k 0).vector n

/-- What a source puts on a scalar bus, as R24 lists it: tag raw, but for a latch (R25); a Q register whose error has been raised is poisoned
until it is written (R282). None for a source that is not for a scalar bus, and for the long immediate. -/
def State.scalarBus (s : State) (c k : Nat) (x : BitVec 10) : Option SVal :=
  let n := x.toNat
  let y := s.ctx c k
  let r := y.regs
  let raw := fun (v : Word) => some (⟨v, 0, false⟩ : SVal)
  if n < 0x40 then some (r.rdS n)
  else if 0x80 ≤ n ∧ n < 0x90 then
    some ⟨if r.rdQ (n - 0x80) then 1 else 0, 0, y.regBad.contains (poisonCode (0x80 + physQ r.base (n - 0x80)))⟩
  else if 0x100 ≤ n ∧ n < 0x200 then
    if latchClass ((n - 0x100) / 8) (n % 8) = some true then some (mget r.slatch SVal.zero (8 * fuOf ((n - 0x100) / 8) + n % 8)) else none
  else if 0x200 ≤ n ∧ n < 0x300 then raw (BitVec.ofInt 64 (if n < 0x280 then (n : Int) - 0x200 else (n : Int) - 0x300))
  else if n = 0x301 then raw (BitVec.ofNat 64 k)
  else if n = 0x302 then raw s.count
  else if n = 0x303 then raw (BitVec.ofNat 64 c)
  else if n = 0x304 then raw (BitVec.ofNat 64 y.taskId.toNat)
  else if n = 0x305 ∨ n = 0x307 ∨ n = 0x309 ∨ n = 0x30B then
    raw (if (r.loop ((n - 0x305) / 2)).act then (r.loop ((n - 0x305) / 2)).remain else 0)
  else if n = 0x306 ∨ n = 0x308 ∨ n = 0x30A ∨ n = 0x30C then
    raw (if (r.loop ((n - 0x306) / 2)).act then BitVec.ofNat 64 (r.loop ((n - 0x306) / 2)).iter.toNat else 0)
  else if n = 0x30D then raw (BitVec.ofNat 64 r.base.toNat)
  else none

/-- What a source puts on a vector bus, as R24 lists it: a V register and a vector latch with their tags, the lane index with tag i32, the
lanes of an M register all ones or zero, with tag raw (log 48), and of every scalar the low 32 bits in each lane, with tag raw (R25). -/
def State.vectorBus (s : State) (c k : Nat) (x : BitVec 10) : Option VVal :=
  let n := x.toNat
  let r := (s.ctx c k).regs
  if 0x40 ≤ n ∧ n < 0x80 then some (r.rdV (n - 0x40))
  else if 0xC0 ≤ n ∧ n < 0xC8 then
    some ⟨ofLanes fun l => if (r.rdM (n - 0xC0)).getLsbD l then 0xFFFFFFFF#32 else 0#32, 0,
      if (s.ctx c k).regBad.contains (poisonCode n) then allLanes else 0, false, false⟩
  else if 0x100 ≤ n ∧ n < 0x200 ∧ latchClass ((n - 0x100) / 8) (n % 8) = some false then
    some (mget r.vlatch VVal.zero (8 * fuOf ((n - 0x100) / 8) + n % 8))
  else if n = 0x301 then some ⟨ofLanes fun l => BitVec.ofNat 32 l, 1, 0, false, false⟩
  else
    (s.scalarBus c k x).map fun v =>
      ⟨ofLanes fun _ => v.val.extractLsb' 0 32, 0, if v.poison then BitVec.allOnes 128 else 0, false, false⟩

/-- Context `k` of core `c` comes to issue: it is its turn, its state is listed in the maps, its bundle was fetched (R283), no trap
waits for it, its budget is not exhausted (R64), no register of it has an error (R282), no region of it is open (R212), and none of
its best-effort operations is late (R174). -/
abbrev State.Issues (s : State) (c k : Nat) : Prop :=
  s.turn = .ctx c k ∧ s.setCtx c k (s.ctx c k) = s ∧ (s.core c).imemBad.contains (s.ctx c k).pc.toNat = false ∧
    (s.ctx c k).ptrap = none ∧ (s.ctx c k).regs.budget ≠ 0 ∧ (s.ctx c k).regBad = [] ∧
    (s.ctx c k).region.isOpen = false ∧ s.late c k = false

/-- The accesses of a bundle wait for nothing (R18, R83, R174, R291): no exchange of the context in flight names their places, no
write of it that they would overtake is in flight, their pages have been looked up and their banks are awake. -/
abbrev Env.Clear (e : Env) (accs : List Acc) : Prop :=
  e.underOwn accs = false ∧ e.behindOwn accs = false ∧ e.missing accs = none ∧ e.asleep accs = none

/-- Whether a bundle's accesses hold one of the carrel (R162). -/
def holdsCarrel (accs : List Acc) : Bool := accs.any fun a => lvlOf a.va == some 1

/-- The context after its bundle: the next bundle by the flow, one bundle charged to the budget (R63). -/
def Ctx.stepped (y : Ctx) (pc : BitVec 13) (f : Flow) : Ctx := ((afterFlow y pc f none).charged).dropLoops

/-- THE STATE AFTER A BUNDLE HAS COMMITTED: `t` is the state in which its slots have acted on their own context and have put their
operations in flight, `f` the flow, `units` the units whose operations it has started (R162). Everything not named here is as before the
bundle: memory, the counts, the other cores, the control complex, the outside. -/
def State.issued (s t : State) (c k : Nat) (word : BitVec 256) (units : List Nat) (carrel : Bool) (f : Flow) : State :=
  let y := (t.ctx c k).stepped (s.ctx c k).pc f
  let x := ((t.core c).setCtx k y).chose k (s.ctx c k).timed (decide (y.yieldFor = s.clock + 1)) word units carrel
  { s with
    cores := mput s.cores c x
    agenda := s.agenda ++ newOps s.agenda.length t.free t.agenda
    free := t.free
    claims := t.claims
    banks := t.banks
    ports := t.ports
    gs := t.gs
    ctl := { s.ctl with launches := t.ctl.launches }
    turn := .idle
    tried := (c, k) :: s.tried }

/-- The bundle that holds only this move. -/
def moveBundle (g : BitVec 4) (s d : BitVec 10) : BitVec 256 := bundleOfMove (moveWord g s d)

/-- A scalar value that may be consumed: it is not poisoned (R281). -/
abbrev SVal.Clean (v : SVal) : Prop := v.poison = false
/-- A vector value that an operation accepts: no lane it reads is poisoned (R281), it has no format mark (R74), and its tag is raw or
among `tags` (R121). -/
abbrev VVal.Fits (v : VVal) (lanes : Mask) (tags : List Tag) : Prop :=
  v.poison &&& lanes = 0 ∧ v.mark = false ∧ (v.tag = 0 ∨ tags.contains v.tag = true)
/-- A vector value that an operation of any tag accepts. -/
abbrev VVal.Clean (v : VVal) (lanes : Mask) : Prop := v.poison &&& lanes = 0 ∧ v.mark = false

/-- A trigger move comes to act: its context comes to issue, its guard reads true (R31), and its source is one that its bus carries
(R24) and is not the long immediate. -/
abbrev State.Trig (s : State) (c k : Nat) (g : BitVec 4) (x d : BitVec 10) : Prop :=
  s.Issues c k ∧ (s.ctx c k).regs.rdQ g.toNat = true ∧ srcOk (busOf d) x = true ∧ x ≠ 0x300#10

/-- A slot whose guard reads true comes to act (R31). -/
abbrev State.Slot (s : State) (c k : Nat) (g : BitVec 4) : Prop := s.Issues c k ∧ (s.ctx c k).regs.rdQ g.toNat = true

/-- A scalar operand port of a unit. -/
def State.pS (s : State) (c k f p : Nat) : SVal := (s.ctx c k).regs.rdSP f p
/-- A vector operand port of a unit. -/
def State.pV (s : State) (c k f p : Nat) : VVal := (s.ctx c k).regs.rdVP f p

/-! ### Tables of the scalar units (R40 to R43) -/

/-- An operation of a scalar unit: its guard and source, its unit, page and operation code (R34), its latency, whether it reads port a
and port b, and its result as a function of a, b and t. -/
structure ScalarRow where
  g : BitVec 4
  x : BitVec 10
  unit : Nat
  code : Nat
  lat : Nat
  a : Bool
  b : Bool
  z : Word → Word → Word → Word

/-- The destination code of an operation: 0b1_fffff_oooo (R27). -/
def trigCode (f o : Nat) : BitVec 10 := BitVec.ofNat 10 (0x200 + 16 * f + o)

/-- 1 when a relation holds, else 0. -/
def oneIf (p : Prop) [Decidable p] : Word := if p then 1 else 0

/-- The operations of page A of sa0 and sa1, as R40 lists them: the low bits of the code are `16 * page + operation`. -/
def scalarA : Instr → Option ScalarRow
  | .add g x u => some ⟨g, x, 2 * u.toNat, 0, 1, true, true, fun a _ t => a + t⟩
  | .sub g x u => some ⟨g, x, 2 * u.toNat, 1, 1, true, true, fun a _ t => a - t⟩
  | .and g x u => some ⟨g, x, 2 * u.toNat, 2, 1, true, true, fun a _ t => a &&& t⟩
  | .or g x u => some ⟨g, x, 2 * u.toNat, 3, 1, true, true, fun a _ t => a ||| t⟩
  | .xor g x u => some ⟨g, x, 2 * u.toNat, 4, 1, true, true, fun a _ t => a ^^^ t⟩
  | .andn g x u => some ⟨g, x, 2 * u.toNat, 5, 1, true, true, fun a _ t => a &&& ~~~t⟩
  | .shl g x u => some ⟨g, x, 2 * u.toNat, 6, 1, true, true, fun a _ t => a <<< (t.toNat % 64)⟩
  | .shr g x u => some ⟨g, x, 2 * u.toNat, 7, 1, true, true, fun a _ t => a >>> (t.toNat % 64)⟩
  | .sar g x u => some ⟨g, x, 2 * u.toNat, 8, 1, true, true, fun a _ t => BitVec.ofInt 64 (a.toInt >>> (t.toNat % 64))⟩
  | .min g x u => some ⟨g, x, 2 * u.toNat, 9, 1, true, true, fun a _ t => if a.toInt ≤ t.toInt then a else t⟩
  | .max g x u => some ⟨g, x, 2 * u.toNat, 10, 1, true, true, fun a _ t => if a.toInt ≤ t.toInt then t else a⟩
  | .minu g x u => some ⟨g, x, 2 * u.toNat, 11, 1, true, true, fun a _ t => if a.toNat ≤ t.toNat then a else t⟩
  | .maxu g x u => some ⟨g, x, 2 * u.toNat, 12, 1, true, true, fun a _ t => if a.toNat ≤ t.toNat then t else a⟩
  | .sel g x u => some ⟨g, x, 2 * u.toNat, 13, 1, true, true, fun a b t => if b ≠ 0 then a else t⟩
  | .pass g x u => some ⟨g, x, 2 * u.toNat, 14, 1, true, true, fun _ _ t => t⟩
  | .hi g x u => some ⟨g, x, 2 * u.toNat, 15, 1, true, true, fun a _ t => (t <<< 32) ||| (a &&& 0xFFFFFFFF#64)⟩
  | _ => none

/-- mask(w) of R41: 2^w - 1. -/
def maskOf (w : Nat) : Word := BitVec.ofNat 64 (2 ^ w - 1)
/-- p of bext and bins (R41). -/
def fieldAt (t : Word) : Nat := t.toNat % 64
/-- w of bext and bins (R41). -/
def fieldWidth (t : Word) : Nat := min (t.toNat / 256 % 128) 64

/-- The operations of page B of sa0 and sa1, as R41 lists them. -/
def scalarB : Instr → Option ScalarRow
  | .ceq g x u => some ⟨g, x, 2 * u.toNat, 16, 1, true, true, fun a _ t => oneIf (a = t)⟩
  | .cne g x u => some ⟨g, x, 2 * u.toNat, 17, 1, true, true, fun a _ t => oneIf (a ≠ t)⟩
  | .clt g x u => some ⟨g, x, 2 * u.toNat, 18, 1, true, true, fun a _ t => oneIf (a.toInt < t.toInt)⟩
  | .cltu g x u => some ⟨g, x, 2 * u.toNat, 19, 1, true, true, fun a _ t => oneIf (a.toNat < t.toNat)⟩
  | .cle g x u => some ⟨g, x, 2 * u.toNat, 20, 1, true, true, fun a _ t => oneIf (a.toInt ≤ t.toInt)⟩
  | .cleu g x u => some ⟨g, x, 2 * u.toNat, 21, 1, true, true, fun a _ t => oneIf (a.toNat ≤ t.toNat)⟩
  | .clz g x u => some ⟨g, x, 2 * u.toNat, 22, 1, true, true, fun _ _ t => BitVec.ofNat 64 (clz64 t)⟩
  | .ctz g x u => some ⟨g, x, 2 * u.toNat, 23, 1, true, true, fun _ _ t => BitVec.ofNat 64 (ctz64 t)⟩
  | .popc g x u => some ⟨g, x, 2 * u.toNat, 24, 1, true, true, fun _ _ t => BitVec.ofNat 64 (popc64 t)⟩
  | .sx8 g x u => some ⟨g, x, 2 * u.toNat, 25, 1, true, true, fun _ _ t => (t.setWidth 8).signExtend 64⟩
  | .sx16 g x u => some ⟨g, x, 2 * u.toNat, 26, 1, true, true, fun _ _ t => (t.setWidth 16).signExtend 64⟩
  | .sx32 g x u => some ⟨g, x, 2 * u.toNat, 27, 1, true, true, fun _ _ t => (t.setWidth 32).signExtend 64⟩
  | .zx32 g x u => some ⟨g, x, 2 * u.toNat, 28, 1, true, true, fun _ _ t => (t.setWidth 32).setWidth 64⟩
  | .bext g x u => some ⟨g, x, 2 * u.toNat, 29, 1, true, true, fun a _ t => (a >>> fieldAt t) &&& maskOf (fieldWidth t)⟩
  | .bins g x u => some ⟨g, x, 2 * u.toNat, 30, 1, true, true, fun a b t =>
      let m := maskOf (fieldWidth t) <<< fieldAt t
      (a &&& ~~~m) ||| ((b <<< fieldAt t) &&& m)⟩
  | .adds g x u => some ⟨g, x, 2 * u.toNat, 31, 1, true, true, fun a _ t =>
      BitVec.ofInt 64 (max (-(2 ^ 63)) (min (2 ^ 63 - 1) (a.toInt + t.toInt)))⟩
  | _ => none

/-- The operations of sm, as R42 lists them with the cases of R43. -/
def scalarM : Instr → Option ScalarRow
  | .mul g x => some ⟨g, x, 4, 0, 3, true, false, fun a _ t => BitVec.ofNat 64 (a.toNat * t.toNat)⟩
  | .mulh g x => some ⟨g, x, 4, 1, 3, true, false, fun a _ t => (BitVec.ofInt 128 (a.toInt * t.toInt)).extractLsb' 64 64⟩
  | .mulhu g x => some ⟨g, x, 4, 2, 3, true, false, fun a _ t => (BitVec.ofNat 128 (a.toNat * t.toNat)).extractLsb' 64 64⟩
  | .div g x => some ⟨g, x, 4, 3, 18, true, false, fun a _ t =>
      if t = 0 then BitVec.allOnes 64 else BitVec.ofInt 64 (a.toInt.tdiv t.toInt)⟩
  | .divu g x => some ⟨g, x, 4, 4, 18, true, false, fun a _ t =>
      if t = 0 then BitVec.allOnes 64 else BitVec.ofNat 64 (a.toNat / t.toNat)⟩
  | .rem g x => some ⟨g, x, 4, 5, 18, true, false, fun a _ t =>
      if t = 0 then a else a - t * BitVec.ofInt 64 (a.toInt.tdiv t.toInt)⟩
  | .remu g x => some ⟨g, x, 4, 6, 18, true, false, fun a _ t =>
      if t = 0 then a else a - t * BitVec.ofNat 64 (a.toNat / t.toNat)⟩
  | .mix g x => some ⟨g, x, 4, 7, 4, true, false, fun a _ t => mix a t⟩
  | _ => none

/-- What every operation of a scalar unit does, by its row: it reads its ports and t, none of which is poisoned, and lands its
result in z with tag raw after its latency (R39, R42). -/
abbrev State.Scalar (s : State) (c k : Nat) (i : Instr) (r : ScalarRow) : Prop :=
  s.Trig c k r.g r.x (trigCode r.unit r.code) → (r.a = true → (s.pS c k r.unit 0).Clean) →
    (r.b = true → (s.pS c k r.unit 1).Clean) → (s.src c k r.x).Clean →
    exec i s = .next (s.issued
      (s.lands c k r.unit r.lat (some (raw (r.z (s.pS c k r.unit 0).val (s.pS c k r.unit 1).val (s.src c k r.x).val))) none 0)
      c k (moveBundle r.g r.x (trigCode r.unit r.code)) [r.unit] false .fall)

/-- Every memory of the package has its canonical form: the levels, the carrels, the control complex's SRAM and instruction memories,
flash and fuses; only a gallery bank that is waking holds writes back (R210), and every entry of a phase buffer is of a 16-byte part
(R177). -/
def State.memOk (s : State) : Bool :=
  Mem.wf s.mem && Memory.wf s.out.flash && Memory.wf s.out.fuses && (s.ctl.ccs.all fun q => Memory.wf q.2.imem) &&
    (s.banks.all fun q => q.2.queue == [] || q.2.state == 2) &&
    s.cores.all fun q => q.2.ctxs.all fun y => (y.2.closed ++ y.2.pbuf).all fun e => e.pa % 16 == 0

/-! ### Rows of the other units -/

/-- An operation of a unit when its conditions hold: its guard and source, its unit and operation code (R34), the accesses that it
makes (R18), its conditions on the context and its operands, and the state in which it has acted. -/
structure UnitRow where
  g : BitVec 4
  x : BitVec 10
  unit : Nat
  code : Nat
  accs : List Acc
  ok : Bool
  post : State

/-- What an operation does, by its row: when its accesses wait for nothing, no region stands open beside an operation of mx (R213), no
burst has yet to make records through its unit (R86), and its conditions hold, its bundle commits and nothing but the row's effect
happens. -/
abbrev State.Runs (s : State) (c k : Nat) (i : Instr) (r : UnitRow) : Prop :=
  s.Trig c k r.g r.x (trigCode r.unit r.code) → (s.env c k 0).Clear r.accs → (r.unit = 20 → s.regionBeside c k = false) →
    s.bursting c k [r.unit] = false → r.ok = true →
      exec i s = .next (s.issued r.post c k (moveBundle r.g r.x (trigCode r.unit r.code)) [r.unit] (holdsCarrel r.accs) .fall)

/-- What a check answers: its places; level 0 when it fails. -/
def placed (r : Except Trap (Nat × Nat × Nat)) : Nat × Nat × Nat := match r with | .ok p => p | .error _ => (0, 0, 0)
/-- The level and lane places that a vector access reaches. -/
def placedLanes (r : Except Trap (Nat × List (Nat × Nat))) : Nat × List (Nat × Nat) := match r with | .ok p => p | .error _ => (0, [])
/-- A scalar value that is not poisoned. -/
def SVal.fine (v : SVal) : Bool := !v.poison
/-- A vector value that an operation accepts: raw or a tag of the list, no format mark (R74, R121), no poison in the lanes (R281). -/
def VVal.fine (v : VVal) (tags : List Tag) (lanes : Mask) : Bool :=
  v.poison &&& lanes == 0 && !v.mark && (v.tag == 0 || tags.contains v.tag)
/-- A vector value that an operation of any tag accepts. -/
def VVal.any (v : VVal) (lanes : Mask) : Bool := v.poison &&& lanes == 0 && !v.mark

/-! ### lsc (R71 to R73) -/

/-- A load of `n` bytes from a + t: it lands at the latency of its level with the poison of its part. -/
def lscLoadRow (s : State) (c k : Nat) (g : BitVec 4) (x : BitVec 10) (o n : Nat) (signed : Bool) : UnitRow :=
  let e := s.env c k 0
  let a := s.pS c k 5 0
  let t := s.src c k x
  let ea := a.val + t.val
  let q := placed (e.access ea n n true false)
  let w := s.viewN c k q.1 q.2.1 n
  let v : SVal := ⟨if signed then (BitVec.ofNat (8 * n) w).signExtend 64 else BitVec.ofNat 64 w, 0, s.viewPoison c k q.1 q.2.1⟩
  let d := e.extra (s.touchBank (s.ctx c k).timed q.1 q.2.1) q.1
  ⟨g, x, 5, o, [⟨ea.toNat, n, false, true⟩], a.fine && t.fine && (e.access ea n n true false).isOk,
    d.2.pend c k q.1 false (e.lat q.1 q.2.1) d.1 (.land 5 (some (.s v)) none 0)⟩

/-- An entry of a phase buffer once bytes have been stored into its part (R177): each replaces the byte already there and sets its mask
bit; the entry is poisoned when a byte stored is, and stays so unless unpoisoned bytes cover it whole (R70). -/
def PbEntry.stored (x : PbEntry) (bs : List SByte) : PbEntry :=
  let mine := bs.filter fun b => b.pa / 16 == x.pa / 16
  let at_ := fun i => (mine.filter fun b => b.pa % 16 == i).getLast?
  { x with
    data := BitVec.ofNat 128 (wordAt (fun i => match at_ i with | some b => b.b | none => x.data.extractLsb' (8 * i) 8) 0 16)
    mask := x.mask ||| mine.foldl (fun m b => m ||| BitVec.twoPow 16 (b.pa % 16)) 0
    poison := mine.any SByte.poison || (x.poison && !((List.range 16).all fun i => (at_ i).isSome)) }

/-- Whether a phase buffer holds an entry of a task for a part (R177). -/
def bufferHas (buf : List PbEntry) (task : BitVec 20) (part : Nat) : Bool := buf.any fun x => x.pa / 16 == part && x.task == task

/-- A phase buffer after a store of a task (R177): its entries of the parts written take the bytes, and every part without one takes a new
entry, whatever the entries of other tasks are. -/
def bufferAfter (buf : List PbEntry) (task : BitVec 20) (bs : List SByte) : List PbEntry :=
  (buf.map fun x => if x.task = task ∧ bs.any (fun b => b.pa / 16 == x.pa / 16) then x.stored bs else x) ++
    ((partsOf bs).filter fun p => !bufferHas buf task p).map fun p =>
      PbEntry.stored ⟨(((bs.find? fun b => b.pa / 16 == p).map SByte.va).getD 0) / 16 * 16, 16 * p, 0, 0, false, task⟩ bs

/-- The bytes of a store to the gallery that lie in a folio which the core itself claims, and the others (R184). -/
def State.claimedBytes (s : State) (c : Nat) (bs : List SByte) : List SByte × List SByte :=
  bs.partition fun b => s.claims.any fun q => q.1 == b.pa / 16384 && q.2.core == c

/-- Whether the phase buffer of a context has room for the entries that a store to a level needs beyond those it holds (R177). -/
def State.storeFits (s : State) (c k lvl : Nat) (bs : List SByte) : Bool :=
  let y := s.ctx c k
  lvl != 2 || decide (((partsOf (s.claimedBytes c bs).2).filter fun p => !bufferHas y.pbuf y.taskId p).length + y.pbuf.length
    + y.closed.length ≤ 4096 ∨ ((partsOf (s.claimedBytes c bs).2).filter fun p => !bufferHas y.pbuf y.taskId p) = [])

/-- The state in which a store of bytes to one level has acted (R69, R70, R177, R184): bytes of the gallery go to the phase buffer, but for
those of a folio that the core claims; these, and the bytes of the other levels, are to be written at the latency, by a best-effort store
of the gallery or the stacks part by part, each a free time late (R90, R174). -/
def State.storing (s : State) (c k lvl lat : Nat) (bs : List SByte) : State :=
  let y := s.ctx c k
  let now := if lvl = 2 then (s.claimedBytes c bs).2 else []
  let late := if lvl = 2 then (s.claimedBytes c bs).1 else bs
  let u := bs.foldl (fun u b => u.touchBank y.timed lvl b.pa) s
  let u := if now.isEmpty then u else u.setCtx c k { y with pbuf := bufferAfter y.pbuf y.taskId now, pbufLaunch := y.launch }
  let cells := fun (bs : List SByte) => bs.map fun b => (b.pa, b.b)
  if late.isEmpty then u
  else if y.timed || lvl == 1 then u.pend c k lvl true lat 0 (.write (cells late) (storePoison late) none)
  else (partsOf late).foldl (fun u p =>
    let bs := late.filter fun b => b.pa / 16 == p
    let d := (s.env c k 0).extra u lvl
    d.2.pend c k lvl true lat d.1 (.write (cells bs) (storePoison bs) none)) u

/-- A store of the low `n` bytes of t to a + b, the lowest first (R13); poison is stored with them (R70). In the carrel and the
stacks it lands at the latency of its level. -/
def lscStoreRow (s : State) (c k : Nat) (g : BitVec 4) (x : BitVec 10) (o n : Nat) : UnitRow :=
  let e := s.env c k 0
  let a := s.pS c k 5 0
  let b := s.pS c k 5 1
  let t := s.src c k x
  let ea := a.val + b.val
  let q := placed (e.access ea n n false true)
  let d := e.extra s q.1
  let pois := if t.poison then [(q.2.1 / 16, true)] else []
  ⟨g, x, 5, o, [⟨ea.toNat, n, true, true⟩],
    a.fine && b.fine && (e.access ea n n false true).isOk && q.1 != 2,
    d.2.pend c k q.1 true (e.lat q.1 q.2.1) d.1 (.write (cellsOf q.2.1 n t.val.toNat) pois none)⟩

/-- The same store to the gallery: in the phase buffer, when it has room (R177), or, in a folio that the core claims, at the latency
(R184). -/
def lscGalleryRow (s : State) (c k : Nat) (g : BitVec 4) (x : BitVec 10) (o n : Nat) : UnitRow :=
  let e := s.env c k 0
  let a := s.pS c k 5 0
  let b := s.pS c k 5 1
  let t := s.src c k x
  let ea := a.val + b.val
  let q := placed (e.access ea n n false true)
  let bytes : List SByte := (List.range n).map fun i => ⟨ea.toNat + i, q.2.1 + i, t.val.extractLsb' (8 * i) 8, t.poison⟩
  ⟨g, x, 5, o, [⟨ea.toNat, n, true, true⟩],
    a.fine && b.fine && (e.access ea n n false true).isOk && q.1 == 2 && s.storeFits c k 2 bytes,
    s.storing c k 2 (e.lat q.1 q.2.1) bytes⟩

/-- The loads of lsc. -/
def lscLoads (s : State) (c k : Nat) : Instr → Option UnitRow
  | .ld8 g x => some (lscLoadRow s c k g x 0 1 true)
  | .ld8u g x => some (lscLoadRow s c k g x 1 1 false)
  | .ld16 g x => some (lscLoadRow s c k g x 2 2 true)
  | .ld16u g x => some (lscLoadRow s c k g x 3 2 false)
  | .ld32 g x => some (lscLoadRow s c k g x 4 4 true)
  | .ld32u g x => some (lscLoadRow s c k g x 5 4 false)
  | .ld64 g x => some (lscLoadRow s c k g x 6 8 false)
  | _ => none

/-- The stores of lsc to the carrel and the stacks. -/
def lscStores (s : State) (c k : Nat) : Instr → Option UnitRow
  | .st8 g x => some (lscStoreRow s c k g x 7 1)
  | .st16 g x => some (lscStoreRow s c k g x 8 2)
  | .st32 g x => some (lscStoreRow s c k g x 9 4)
  | .st64 g x => some (lscStoreRow s c k g x 10 8)
  | _ => none

/-- The stores of lsc to the gallery. -/
def lscGalleryStores (s : State) (c k : Nat) : Instr → Option UnitRow
  | .st8 g x => some (lscGalleryRow s c k g x 7 1)
  | .st16 g x => some (lscGalleryRow s c k g x 8 2)
  | .st32 g x => some (lscGalleryRow s c k g x 9 4)
  | .st64 g x => some (lscGalleryRow s c k g x 10 8)
  | _ => none

/-- cas and ldlive (R72, R73). An ldlive acts when both its reads have landed: it clears them, and its count, clamped by the bound of
the codex, lands; its reads of the carrel are over then. -/
def lscOthers (s : State) (c k : Nat) : Instr → Option UnitRow
  | .cas g x =>
    let a := s.pS c k 5 0
    let b := s.pS c k 5 1
    let t := s.src c k x
    some ⟨g, x, 5, 11, [⟨a.val.toNat, 8, true, true⟩],
      a.fine && b.fine && t.fine && decide (a.val.toNat < 0x200000) && a.val.toNat % 8 == 0,
      s.pend c k 1 true 6 0 (.cas a.val.toNat b.val t.val)⟩
  | .ldlive g x =>
    let e := s.env c k 0
    let a := s.pS c k 5 0
    let t := s.src c k x
    let r := (s.ctx c k).ldl.getD ⟨0, none, none⟩
    let count := r.count.getD (0, none)
    let codex := r.codex.getD (0, none)
    let n := count.1.toNat
    let b := codex.1.toNat / 2 ^ 96 % 2 ^ 32
    let s1 := s.setCtx c k { s.ctx c k with ldl := none }
    some ⟨g, x, 5, 12, ([⟨a.val.toNat, 8, false, true⟩, ⟨t.val.toNat, 64, false, true⟩] : List Acc).filter fun q => lvlOf q.va != some 1,
      a.fine && t.fine && (ldliveRead e a.val 8).isOk && (ldliveRead e t.val 64).isOk && r.count.isSome && r.codex.isSome
        && count.2.isNone && codex.2.isNone && (decide (n ≤ b) || codex.1.getLsbD 16),
      if n ≤ b then s1.lands c k 5 1 (some (raw (BitVec.ofNat 64 n))) (some (raw 0)) 0
      else (s1.setDefer (s.ctx c k).launch).lands c k 5 1 (some (raw (BitVec.ofNat 64 b))) (some (raw (BitVec.ofNat 64 (n - b)))) 0⟩
  | _ => none

/-! ### lv0 and lv1 (R74, R75, R84 to R88) -/

/-- A vector load: lane `l` of the active lanes is the word at `addr l`, every other lane 0; the tag is c[5:0]. -/
def lvLoadRow (s : State) (c k : Nat) (g : BitVec 4) (x : BitVec 10) (f o : Nat) (addr : Nat → BitVec 64) (act : Mask)
    (gather : Bool) (ports : Bool) : UnitRow :=
  let e := s.env c k 0
  let tag : Tag := (s.pS c k f 2).val.setWidth 6
  let r := lanesAccess e addr act true false
  let q := placedLanes r
  let at_ := fun l => mget q.2 0 l
  let bits := ofLanes fun l => if act.getLsbD l then BitVec.ofNat 32 (s.viewN c k q.1 (at_ l) 4) else 0
  let v : VVal := ⟨bits, tag, ofMask fun l => act.getLsbD l && s.viewPoison c k q.1 (at_ l), false, tag == 6 && badE9 bits⟩
  let d := e.extra (q.2.foldl (fun s p => s.touchBank (s.ctx c k).timed q.1 p.2) s) q.1
  ⟨g, x, f, o, lanesAcc addr act false,
    (s.pS c k f 0).fine && (!ports || (s.pS c k f 1).fine) && (s.pS c k f 2).fine && (s.src c k x).fine && !tagReserved tag && r.isOk,
    d.2.pend c k q.1 false (if gather then gatherLat e q.1 else e.vlat q.1 (q.2.map Prod.snd)) d.1 (.land f (some (.v v)) none 0)⟩

/-- The post-increment of vldp and vstp (R75): port a takes a + b, which y lands at +1. -/
def incremented (s : State) (c k f : Nat) (t : State) : State :=
  let a := (s.pS c k f 0).val + (s.pS c k f 1).val
  (t.setCtx c k ({ t.ctx c k with regs := (t.ctx c k).regs.wrSP f 0 ⟨a, 0, false⟩ }.mend (0x400 + 8 * f))).lands c k f 1 none (some (raw a)) 0

/-- The vector loads (R75). -/
def lvLoads (s : State) (c k : Nat) : Instr → Option UnitRow
  | .vld g x u =>
    let f := 6 + u.toNat
    some (lvLoadRow s c k g x f 0 (fun l => (s.pS c k f 0).val + (s.src c k x).val + BitVec.ofNat 64 (4 * l)) allLanes false false)
  | .vldp g x u =>
    let f := 6 + u.toNat
    let r := lvLoadRow s c k g x f 1 (fun l => (s.pS c k f 0).val + (s.src c k x).val + BitVec.ofNat 64 (4 * l)) allLanes false true
    some { r with post := incremented s c k f r.post }
  | .vlds g x u =>
    let f := 6 + u.toNat
    some (lvLoadRow s c k g x f 2 (fun l => (s.pS c k f 0).val + (s.src c k x).val + BitVec.ofNat 64 l * (s.pS c k f 1).val) allLanes
      false true)
  | .vldb g x u =>
    let f := 6 + u.toNat
    some (lvLoadRow s c k g x f 3 (fun l => (s.pS c k f 0).val + (s.src c k x).val + BitVec.ofNat 64 (4 * (l % 16))) allLanes false
      false)
  | .vgat g x u =>
    let f := 6 + u.toNat
    let n := (s.ctx c k).regs.rdV ((s.src c k x).val.toNat % 64)
    let m := (s.ctx c k).regs.top
    let r := lvLoadRow s c k g x f 4 (fun l => (s.pS c k f 0).val + (lane n.bits l).setWidth 64 * (s.pS c k f 1).val) m true true
    some { r with ok := r.ok && n.any m }
  | _ => none

/-- The bytes that the active lanes of d store, each lane's lowest byte first. -/
def storedLanes (addr : Nat → BitVec 64) (pas : List (Nat × Nat)) (d : VVal) : List SByte :=
  pas.flatMap fun p => (List.range 4).map fun i =>
    ⟨(addr p.1).toNat + i, p.2 + i, (lane d.bits p.1).extractLsb' (8 * i) 8, d.poison.getLsbD p.1⟩

/-- The bytes that a vector store writes: where lanes share an address the highest lane's stand (R75). -/
def lvStored (s : State) (c k f : Nat) (addr : Nat → BitVec 64) : List SByte :=
  let q := placedLanes (lanesAccess (s.env c k 0) addr (s.ctx c k).regs.top false true)
  lastBytes (storedLanes addr q.2 (s.pV c k f 3))

/-- A vector store of the active lanes of d, to the carrel, the stacks or the gallery. -/
def lvStoreRow (s : State) (c k : Nat) (g : BitVec 4) (x : BitVec 10) (f o : Nat) (addr : Nat → BitVec 64) (gather : Bool)
    (ports : Bool) : UnitRow :=
  let e := s.env c k 0
  let d := s.pV c k f 3
  let r := lanesAccess e addr (s.ctx c k).regs.top false true
  let q := placedLanes r
  ⟨g, x, f, o, lanesAcc addr (s.ctx c k).regs.top true,
    (s.pS c k f 0).fine && (!ports || (s.pS c k f 1).fine) && !d.mark && (s.src c k x).fine && r.isOk
      && s.storeFits c k q.1 (lvStored s c k f addr),
    s.storing c k q.1 (if gather then gatherLat e q.1 else e.vlat q.1 (q.2.map Prod.snd)) (lvStored s c k f addr)⟩

/-- The vector stores (R75). -/
def lvStores (s : State) (c k : Nat) : Instr → Option UnitRow
  | .vst g x u =>
    let f := 6 + u.toNat
    some (lvStoreRow s c k g x f 5 (fun l => (s.pS c k f 0).val + (s.src c k x).val + BitVec.ofNat 64 (4 * l)) false false)
  | .vstp g x u =>
    let f := 6 + u.toNat
    let r := lvStoreRow s c k g x f 6 (fun l => (s.pS c k f 0).val + (s.src c k x).val + BitVec.ofNat 64 (4 * l)) false true
    some { r with post := incremented s c k f r.post }
  | .vsts g x u =>
    let f := 6 + u.toNat
    some (lvStoreRow s c k g x f 7 (fun l => (s.pS c k f 0).val + (s.src c k x).val + BitVec.ofNat 64 l * (s.pS c k f 1).val) false
      true)
  | .vsct g x u =>
    let f := 6 + u.toNat
    let n := (s.ctx c k).regs.rdV ((s.src c k x).val.toNat % 64)
    let r := lvStoreRow s c k g x f 8 (fun l => (s.pS c k f 0).val + (lane n.bits l).setWidth 64 * (s.pS c k f 1).val) true true
    some { r with ok := r.ok && n.any (s.ctx c k).regs.top }
  | _ => none

/-- A burst (R86) all of whose records can be made, and which stops no burst of an earlier bundle (R87). With m = 0 it does nothing.
With m not above prog no record is left: prog becomes 0 and y lands the depth. Else its records from prog on are scheduled one a cycle,
and the progress ends at 0. -/
def burstRow (s : State) (c k : Nat) (g : BitVec 4) (x : BitVec 10) (f o : Nat) (fill : Bool) : UnitRow :=
  let t := s.src c k x
  let n := t.val.toNat % 64
  let m := min (n + (s.pS c k f 1).val.toNat) 64 - n
  let e := { s.env c k 0 with bursts := [(f, fill, m)] }
  let w := (s.ctx c k).regs.spill
  let p := w.prog.toNat
  let tag : Tag := (s.pS c k f 2).val.setWidth 6
  let ends := fun (s : State) => s.setCtx c k { s.ctx c k with prog := 0, regs := { (s.ctx c k).regs with spill := { w with prog := 0 } } }
  ⟨g, x, f, o, (List.range (m - p)).map fun i => ⟨(w.addr (e.burstDepth f fill i).toNat).toNat, 512, false, true⟩,
    (s.pS c k f 1).fine && t.fine
      && (if fill then (s.pS c k f 2).fine && !tagReserved tag
          else (List.range (m - p)).all fun i => !((s.ctx c k).regs.rdV (n + p + i)).mark)
      && (burstStop e f fill (m - p)).isNone && (burstRoom f e s (m - p)).isOk && !e.breaksBurst,
    if m = 0 then s
    else if m ≤ p then (ends s).lands c k f 0 none (some (raw w.depth)) 0
    else ends (burstRecords f fill n m tag e s p (m - p))⟩

/-- The bursts. -/
def lvBursts (s : State) (c k : Nat) : Instr → Option UnitRow
  | .vspl g x u => some (burstRow s c k g x (6 + u.toNat) 9 false)
  | .vfil g x u => some (burstRow s c k g x (6 + u.toNat) 10 true)
  | _ => none

/-! ### The vector units (R125 to R138) -/

/-- A vector operation that lands `z` (and `y`) with flags at +`lat`, when its operands fit. -/
def vecRow (s : State) (c k : Nat) (g : BitVec 4) (x : BitVec 10) (u code f lat : Nat) (ok : Bool) (z : VVal) (y : Option VVal)
    (fl : BitVec 5) : UnitRow :=
  ⟨g, x, u, code, [], ok, s.lands c k f lat (some (.v z)) (y.map .v) fl⟩

/-- A clean vector value. -/
def vec (bits : Lanes) (tag : Tag) : VVal := ⟨bits, tag, 0, false, false⟩

/-- A lane function of two operands with flags, on va0 or va1. -/
def vaTwo (s : State) (c k : Nat) (g : BitVec 4) (x : BitVec 10) (u : BitVec 1) (o : Nat) (fn : Lane → Lane → Lane × BitVec 5) : UnitRow :=
  let f := 8 + 2 * u.toNat
  let a := s.pV c k f 0
  let t := s.vsrc c k x
  let r := fun l => fn (lane a.bits l) (lane t.bits l)
  vecRow s c k g x f o f 4 (a.fine [2] allLanes && t.fine [2] allLanes) (vec (ofLanes fun l => (r l).1) 2) none
    (orFlags (s.ctx c k).regs.top fun l => (r l).2)

/-- A lane function of t and, where it is read, c. -/
def vaOne (s : State) (c k : Nat) (g : BitVec 4) (x : BitVec 10) (u : BitVec 1) (o : Nat) (from_ to_ : Tag) (readsC : Bool)
    (fn : Nat → Lane → Lane × BitVec 5) : UnitRow :=
  let f := 8 + 2 * u.toNat
  let t := s.vsrc c k x
  let r := fun l => fn (s.pS c k f 2).val.toNat (lane t.bits l)
  vecRow s c k g x f o f 4 ((!readsC || (s.pS c k f 2).fine) && t.fine [from_] allLanes) (vec (ofLanes fun l => (r l).1) to_) none
    (orFlags (s.ctx c k).regs.top fun l => (r l).2)

/-- A NaN of FP32 (R96): exponent all ones, fraction nonzero. -/
def nan32 (a : Lane) : Bool := decide (0x7F800000 < a.toNat % 2 ^ 31)

/-- Page A of va0 and va1, as R126 lists it. -/
def vaFloat (s : State) (c k : Nat) : Instr → Option UnitRow
  | .fadd g x u => some (vaTwo s c k g x u 0 fadd)
  | .fsub g x u => some (vaTwo s c k g x u 1 fsub)
  | .fmul g x u => some (vaTwo s c k g x u 2 fmul)
  | .ffma g x u =>
    let f := 8 + 2 * u.toNat
    let a := s.pV c k f 0
    let b := s.pV c k f 1
    let t := s.vsrc c k x
    let r := fun l => ffma (lane a.bits l) (lane b.bits l) (lane t.bits l)
    some (vecRow s c k g x f 3 f 4 (a.fine [2] allLanes && b.fine [2] allLanes && t.fine [2] allLanes)
      (vec (ofLanes fun l => (r l).1) 2) none (orFlags (s.ctx c k).regs.top fun l => (r l).2))
  | .fmin g x u => some (vaTwo s c k g x u 4 fmin)
  | .fmax g x u => some (vaTwo s c k g x u 5 fmax)
  | .fabs g x u => some (vaOne s c k g x u 6 2 2 false fun _ a => (if nan32 a then 0x7FC00000#32 else a &&& 0x7FFFFFFF#32, 0))
  | .fneg g x u => some (vaOne s c k g x u 7 2 2 false fun _ a => (if nan32 a then 0x7FC00000#32 else a ^^^ 0x80000000#32, 0))
  | .fcmp g x u =>
    let f := 8 + 2 * u.toNat
    let a := s.pV c k f 0
    let q := s.pS c k f 2
    let t := s.vsrc c k x
    let r := fun l => fcmp (q.val.toNat % 8) (lane a.bits l) (lane t.bits l)
    some (vecRow s c k g x f 8 f 4 (a.fine [2] allLanes && q.fine && t.fine [2] allLanes) (vec (ofLanes fun l => (r l).1) 0) none
      (orFlags (s.ctx c k).regs.top fun l => (r l).2))
  | .fcvti g x u => some (vaOne s c k g x u 9 2 1 true fun n a => fcvti (n % 4) a)
  | .icvtf g x u => some (vaOne s c k g x u 10 1 2 false fun _ a => icvtf a)
  | .fsel g x u =>
    let f := 8 + 2 * u.toNat
    let a := s.pV c k f 0
    let b := s.pV c k f 1
    let t := s.vsrc c k x
    some (vecRow s c k g x f 11 f 4
      (a.any allLanes && b.any allLanes && t.any allLanes && (a.tag == 0 || t.tag == 0 || a.tag == t.tag))
      (vec (ofLanes fun l => if lane b.bits l = 0 then lane t.bits l else lane a.bits l) (if a.tag = 0 then t.tag else a.tag)) none 0)
  | .frnd g x u => some (vaOne s c k g x u 12 2 2 true fun n a => (frnd (n % 4) a, 0))
  | _ => none

/-- A lane function of a and t without flags, with the tags accepted and the tag of the result. -/
def vaInt (s : State) (c k : Nat) (g : BitVec 4) (x : BitVec 10) (u : BitVec 1) (o : Nat) (ok : VVal → VVal → Bool)
    (tag : Tag → Tag → Tag) (fn : Lane → Lane → Lane) : UnitRow :=
  let f := 8 + 2 * u.toNat
  let a := s.pV c k f 0
  let t := s.vsrc c k x
  vecRow s c k g x f (16 + o) f 4 (ok a t) (vec (ofLanes fun l => fn (lane a.bits l) (lane t.bits l)) (tag a.tag t.tag)) none 0

/-- Both operands i32 or raw. -/
def bothI32 (a t : VVal) : Bool := a.fine [1] allLanes && t.fine [1] allLanes
/-- Operands of any tag. -/
def anyTags (a t : VVal) : Bool := a.any allLanes && t.any allLanes
/-- Any tag and an i32 count. -/
def shiftTags (a t : VVal) : Bool := a.any allLanes && t.fine [1] allLanes

/-- The lane operations of page B of va0 and va1, as R128 lists them. -/
def vaInteger (s : State) (c k : Nat) : Instr → Option UnitRow
  | .iadd g x u => some (vaInt s c k g x u 0 bothI32 (fun _ _ => 1) fun a t => a + t)
  | .isub g x u => some (vaInt s c k g x u 1 bothI32 (fun _ _ => 1) fun a t => a - t)
  | .imul g x u => some (vaInt s c k g x u 2 bothI32 (fun _ _ => 1) fun a t => a * t)
  | .vand g x u => some (vaInt s c k g x u 3 anyTags (fun p q => if p = q then p else 0) fun a t => a &&& t)
  | .vor g x u => some (vaInt s c k g x u 4 anyTags (fun p q => if p = q then p else 0) fun a t => a ||| t)
  | .vxor g x u => some (vaInt s c k g x u 5 anyTags (fun p q => if p = q then p else 0) fun a t => a ^^^ t)
  | .vshl g x u => some (vaInt s c k g x u 6 shiftTags (fun p _ => p) fun a t => a <<< (t.toNat % 32))
  | .vshr g x u => some (vaInt s c k g x u 7 shiftTags (fun p _ => p) fun a t => a >>> (t.toNat % 32))
  | .vsar g x u => some (vaInt s c k g x u 8 shiftTags (fun p _ => p) fun a t => BitVec.ofInt 32 (a.toInt >>> (t.toNat % 32)))
  | .imin g x u => some (vaInt s c k g x u 9 bothI32 (fun _ _ => 1) fun a t => if a.toInt ≤ t.toInt then a else t)
  | .imax g x u => some (vaInt s c k g x u 10 bothI32 (fun _ _ => 1) fun a t => if a.toInt ≤ t.toInt then t else a)
  | .icmp g x u =>
    let f := 8 + 2 * u.toNat
    let a := s.pV c k f 0
    let q := s.pS c k f 2
    let t := s.vsrc c k x
    some (vecRow s c k g x f 27 f 4 (a.fine [1] allLanes && q.fine && t.fine [1] allLanes)
      (vec (ofLanes fun l => icmp (q.val.toNat % 8) (lane a.bits l) (lane t.bits l)) 0) none 0)
  | _ => none

/-- The lanes of a that a lane move reads. -/
def lanesFrom (src : Nat → Nat) : Mask := (List.range 128).foldl (fun m l => setBit m (src l) true) 0

/-- A lane move of va0 or va1 (R129): z[l] := a[src l] with a's tag. -/
def laneRow (s : State) (c k : Nat) (g : BitVec 4) (x : BitVec 10) (u : BitVec 1) (o lat : Nat) (readsC : Bool) (lanes : Mask)
    (src : Lanes → Nat → Nat) : UnitRow :=
  let f := 8 + 2 * u.toNat
  let a := s.pV c k f 0
  let t := s.vsrc c k x
  vecRow s c k g x f (16 + o) f lat
    (a.any (lanesFrom (src t.bits)) && (!readsC || (s.pS c k f 2).fine) && t.fine [1] lanes)
    (vec (ofLanes fun l => lane a.bits (src t.bits l)) a.tag) none 0

/-- The lane moves and the cluster reduction of page B, as R129 and R130 list them. -/
def vaLanes (s : State) (c k : Nat) : Instr → Option UnitRow
  | .lbc g x u =>
    some (laneRow s c k g x u 12 6 true 1 fun t l =>
      if (s.pS c k (8 + 2 * u.toNat) 2).val.getLsbD 0 then 16 * (l / 16) + (lane t 0).toNat % 16 else (lane t 0).toNat % 128)
  | .lperm g x u => some (laneRow s c k g x u 13 4 false allLanes fun t l => 16 * (l / 16) + (lane t l).toNat % 16)
  | .xcl g x u => some (laneRow s c k g x u 14 8 false 1 fun t l => 16 * ((l / 16 + 8 - (lane t 0).toNat % 8) % 8) + l % 16)
  | .lred g x u =>
    let f := 8 + 2 * u.toNat
    let t := s.vsrc c k x
    let m := (s.ctx c k).regs.top
    let op := (s.pS c k f 2).val.toNat % 8
    let tag : Tag := if op < 3 then 2 else 1
    let r := fun j => reduceList op (((List.range 16).filter fun i => m.getLsbD (16 * j + i)).map fun i => lane t.bits (16 * j + i))
    some (vecRow s c k g x f 31 f 4 ((s.pS c k f 2).fine && t.fine [tag] m) (vec (ofLanes fun l => (r (l / 16)).1) tag) none
      ((List.range 8).foldl (fun acc j => acc ||| (r j).2) 0))
  | _ => none

/-- Whether a stage of a triad accepts the tags of its inputs, those that it reads (R132). -/
def stageFits (op : Nat) (x y : Tag) : Bool :=
  !(stageReadsX op && stageBadX op x) && !(stageReadsY op && stageBadY op y)

/-- vt.tri i (R131, R132): three stages of recipe i in a chain over the ports a, b, c and d; t is not read, but its bus reads the source,
which carries no format mark (R121). -/
def triad (s : State) (c k : Nat) : Instr → Option UnitRow
  | .vtTri g x i =>
    let r := (mget (s.ctx c k).regs.recipe 0 i.toNat).toNat
    let o1 := r / 256 % 16
    let o2 := r / 16 % 16
    let o3 := r % 16
    let a := s.pV c k 12 0
    let b := s.pV c k 12 1
    let q := s.pV c k 12 2
    let d := s.pV c k 12 3
    let t1 := stageTag o1 a.tag b.tag
    let t2 := stageTag o2 t1 q.tag
    let p := fun l => stageVal o1 (lane a.bits l) (lane b.bits l)
    let w := fun l => stageVal o2 (p l).1 (lane q.bits l)
    let z := fun l => stageVal o3 (w l).1 (lane d.bits l)
    some (vecRow s c k g x 12 i.toNat 12 12
      (!(s.vsrc c k x).mark && (o1 == 15 || a.any allLanes) && (o1 == 14 || b.any allLanes) && (o2 == 14 || q.any allLanes)
        && (o3 == 14 || d.any allLanes) && stageFits o1 a.tag b.tag && stageFits o2 t1 q.tag && stageFits o3 t2 d.tag)
      (vec (ofLanes fun l => (z l).1) (stageTag o3 t2 d.tag)) none
      (orFlags (s.ctx c k).regs.top fun l => (p l).2 ||| (w l).2 ||| (z l).2))
  | _ => none

/-- A special function of t. -/
def vsOne (s : State) (c k : Nat) (g : BitVec 4) (x : BitVec 10) (o lat : Nat) (tag : Tag) (fn : Lane → Lane × BitVec 5) : UnitRow :=
  let t := s.vsrc c k x
  vecRow s c k g x 13 o 13 lat (t.fine [2] allLanes) (vec (ofLanes fun l => (fn (lane t.bits l)).1) tag) none
    (orFlags (s.ctx c k).regs.top fun l => (fn (lane t.bits l)).2)

/-- A special function of a and t. -/
def vsTwo (s : State) (c k : Nat) (g : BitVec 4) (x : BitVec 10) (o lat : Nat) (tag : Tag) (fn : Lane → Lane → Lane × BitVec 5) :
    UnitRow :=
  let a := s.pV c k 13 0
  let t := s.vsrc c k x
  let r := fun l => fn (lane a.bits l) (lane t.bits l)
  vecRow s c k g x 13 o 13 lat (a.fine [2] allLanes && t.fine [tag] allLanes) (vec (ofLanes fun l => (r l).1) 2) none
    (orFlags (s.ctx c k).regs.top fun l => (r l).2)

/-- The operations of vs, as R134 lists them. -/
def vsRows (s : State) (c k : Nat) : Instr → Option UnitRow
  | .rcpa g x => some (vsOne s c k g x 0 6 2 rcpa)
  | .rsqa g x => some (vsOne s c k g x 1 6 2 rsqa)
  | .rcpn g x => some (vsTwo s c k g x 2 8 2 rcpn)
  | .rsqn g x => some (vsTwo s c k g x 3 8 2 rsqn)
  | .exp2a g x => some (vsOne s c k g x 4 6 2 exp2a)
  | .log2a g x => some (vsOne s c k g x 5 6 2 log2a)
  | .fsqrt g x => some (vsOne s c k g x 6 14 2 fsqrt)
  | .fdiv g x => some (vsTwo s c k g x 7 14 2 fdiv)
  | .fscl g x => some (vsTwo s c k g x 8 6 1 fscl)
  | .fexp g x => some (vsOne s c k g x 9 6 1 fun a => (fexp a, 0))
  | _ => none

/-- What vq reads of its ports (R135), as an environment of its operations. -/
def vqEnv (s : State) (c k : Nat) : Env := s.env c k 4

/-- The operand d of vq: e9 or raw, its lanes 0 and 1 not poisoned, and no container with a bit of 15:9 (R135). -/
def scalesFine (s : State) (c k : Nat) : Bool :=
  let d := s.pV c k 14 3
  d.fine [6] 3 && ((List.range 4).all fun i => (container d.bits i).extractLsb' 9 7 == 0)

/-- Four counts in lanes 0 to 3. -/
def counts (n : Nat → Nat) : VVal := vec (ofLanes fun l => if l < 4 then BitVec.ofNat 32 (n l) else 0) 1

/-- The operations of vq, as R135 to R138 list them. -/
def vqRows (s : State) (c k : Nat) : Instr → Option UnitRow
  | .bmax g x =>
    let t := s.vsrc c k x
    let fmt : Tag := (s.pS c k 14 2).val.setWidth 6
    let rs := bmaxAll (vqEnv s c k) t.bits (k8Of fmt)
    let sc := fun i => (rs.getD i (0, 0)).1
    some (vecRow s c k g x 14 0 14 6 ((s.pS c k 14 1).fine && (s.pS c k 14 2).fine && t.fine [2] allLanes && isK8 fmt)
      (vec (ofLanes fun l => if l < 2 then BitVec.ofNat 32 (sc (2 * l) + 65536 * sc (2 * l + 1)) else 0) 6)
      (some (counts fun i => (rs.getD i (0, 0)).2)) 0)
  | .qnt g x =>
    let t := s.vsrc c k x
    let b := (s.pS c k 14 1).val
    let fmt : Tag := (s.pS c k 14 2).val.setWidth 6
    let r := fun n => (k8Of fmt).element (b.toNat / 8 % 4) (vqRandom (vqEnv s c k) n) (scaleOf (s.pV c k 14 3).bits (n / 32))
      (lane t.bits n)
    some (vecRow s c k g x 14 1 14 6
      ((s.pS c k 14 1).fine && (s.pS c k 14 2).fine && scalesFine s c k && t.fine [2] allLanes && isK8 fmt)
      (vec (packed fun n => (r n).1) fmt) (some (counts fun i => blockCount i fun n => (r n).2.2))
      (orFlags allLanes fun n => (r n).2.1))
  | .dqt g x =>
    let t := s.vsrc c k x
    let fmt : Tag := if t.tag = 0 then (s.pS c k 14 2).val.setWidth 6 else t.tag
    let r := fun n => dqtElem fmt (scaleOf (s.pV c k 14 3).bits (n / 32)) (elem8 t.bits n)
    some (vecRow s c k g x 14 2 14 6
      ((t.tag != 0 || (s.pS c k 14 2).fine) && scalesFine s c k && t.any allLanes
        && (isK8 fmt || (t.tag != 0 && (t.tag == 4 || t.tag == 5))))
      (vec (ofLanes fun n => (r n).1) 2) none (orFlags allLanes fun n => (r n).2))
  | .cvb g x =>
    let a := s.pV c k 14 0
    let t := s.vsrc c k x
    let r := fun n => if n < 128 then toB16 (lane t.bits n) else toB16 (lane a.bits (n - 128))
    some (vecRow s c k g x 14 3 14 6 (a.fine [2] allLanes && t.fine [2] allLanes)
      (vec (ofLanes fun l => (r (2 * l + 1)).1 ++ (r (2 * l)).1) 3) none
      (orFlags allLanes fun n => (toB16 (lane t.bits n)).2 ||| (toB16 (lane a.bits n)).2))
  | .cvf g x =>
    let q := s.pS c k 14 2
    let t := s.vsrc c k x
    let el := fun n => (lane t.bits (n / 2)).extractLsb' (16 * (n % 2)) 16
    some (vecRow s c k g x 14 4 14 6 (q.fine && t.fine [3] allLanes)
      (vec (ofLanes fun l => ofB16 (el (l + if q.val.getLsbD 0 then 128 else 0))) 2) none 0)
  | .cvsb g x => some (small g x 5 false 4)
  | .cvub g x => some (small g x 6 true 5)
  | .fret g x =>
    let a := s.pV c k 14 0
    let t := s.vsrc c k x
    let m := (s.ctx c k).regs.top
    let w := fun l => fretWord m a.bits t.bits l
    let n := fun q => (List.range 128).countP fun l => (w l).getLsbD 18 && ((w l).extractLsb' 16 2).toNat == q
    let miss := (List.range 128).countP fun l => m.getLsbD l && !(lane t.bits l).msb && w l == 0
    some (vecRow s c k g x 14 7 14 6 (a.any 15 && t.fine [1] m) (vec (ofLanes w) 7)
      (some (vec (ofLanes fun l => if l < 4 then BitVec.ofNat 32 (n l) else if l = 4 then BitVec.ofNat 32 miss else 0) 1)) 0)
  | .pack g x =>
    let q := s.pS c k 14 2
    let t := s.vsrc c k x
    let fmt : Tag := q.val.setWidth 6
    let cl := fun n => if fmt = 4 then max (-128) (min 127 (lane t.bits n).toInt) else max 0 (min 255 (lane t.bits n).toInt)
    some (vecRow s c k g x 14 8 14 6 (q.fine && t.fine [1] allLanes && (fmt == 4 || fmt == 5))
      (vec (packed fun n => (cl n % 256).toNat) fmt) none 0)
  | .unpk g x =>
    let q := s.pS c k 14 2
    let t := s.vsrc c k x
    let sgn := t.tag == 4 || (t.tag == 0 && q.val.getLsbD 0)
    let el := fun n => BitVec.ofNat 8 (elem8 t.bits n)
    some (vecRow s c k g x 14 9 14 6 (q.fine && t.fine [4, 5] allLanes)
      (vec (ofLanes fun n => if sgn then (el n).signExtend 32 else (el n).setWidth 32) 1) none 0)
  | .vtag g x =>
    let q := s.pS c k 14 2
    let t := s.vsrc c k x
    let fmt : Tag := q.val.setWidth 6
    some (vecRow s c k g x 14 10 14 6 (q.fine && t.any allLanes && !tagReserved fmt)
      ⟨t.bits, fmt, 0, false, fmt == 6 && badE9 t.bits⟩ none 0)
  | _ => none
where
  /-- cvsb and cvub (R137): bytes of the signed or unsigned integers nearest to the scaled elements. -/
  small (g : BitVec 4) (x : BitVec 10) (o : Nat) (uns : Bool) (tag : Tag) : UnitRow :=
    let t := s.vsrc c k x
    let b := (s.pS c k 14 1).val
    let r := fun n => toSmall uns (b.toNat / 8 % 4) (vqRandom (vqEnv s c k) n) (scaleOf (s.pV c k 14 3).bits (n / 32)) (lane t.bits n)
    vecRow s c k g x 14 o 14 6 ((s.pS c k 14 1).fine && scalesFine s c k && t.fine [2] allLanes)
      (vec (packed fun n => ((r n).1 % 256).toNat) tag) (some (counts fun i => blockCount i fun n => (r n).2.2))
      (orFlags allLanes fun n => (r n).2.1)

/-! ### The exchange unit (R76 to R82, R183, R184) -/

/-- Whether nothing else holds a range: no exchange of another context names it (R77) and no other core claims it (R183). -/
def rangeFree (s : State) (c k lvl pa n : Nat) : Bool :=
  !s.underExchange c k lvl pa n && (lvl != 2 || (s.claimedBy c pa n).isNone)

/-- An exchange of the ranges at p (port a) and q (t), of 256 bytes for a leaf and 16,384 for a folio: both are reached, their levels
may be exchanged, nothing else holds them, and a checked exchange finds the marks of ports b and c. It claims the folios in the
gallery at issue and lands at its latency. -/
def xchRow (s : State) (c k : Nat) (g : BitVec 4) (x : BitVec 10) (o : Nat) (leaf checked : Bool) : UnitRow :=
  let e := s.env c k 0
  let n := if leaf then 256 else 16384
  let p := s.pS c k 16 0
  let q := s.src c k x
  let rp := e.reach p.val n n true true
  let rq := e.reach q.val n n true true
  let a : Loc := ⟨(placed rp).1, c, p.val.toNat, (placed rp).2.1⟩
  let b : Loc := ⟨(placed rq).1, c, q.val.toNat, (placed rq).2.1⟩
  let lat := xchLat e leaf a b
  let s1 := claimPlace e (claimPlace e s a.lvl a.pa) b.lvl b.pa
  let s2 := (s1.touchBank (s.ctx c k).timed a.lvl a.pa).touchBank (s.ctx c k).timed b.lvl b.pa
  let d := e.extra s2 (max a.lvl b.lvl)
  ⟨g, x, 16, o, [⟨p.val.toNat, n, false, true⟩, ⟨q.val.toNat, n, false, true⟩],
    p.fine && q.fine && (!checked || ((s.pS c k 16 1).fine && (s.pS c k 16 2).fine)) && decide (s.xuCount c < 16)
      && rp.isOk && rq.isOk && lat.isSome && rangeFree s c k a.lvl a.pa n && rangeFree s c k b.lvl b.pa n
      && (!checked || (s.markAt a == (s.pS c k 16 1).val.setWidth 32 && s.markAt b == (s.pS c k 16 2).val.setWidth 32)),
    d.2.pend c k a.lvl true (lat.getD 0) d.1 (.xch leaf a b)⟩

/-- The four exchanges. -/
def exchanges (s : State) (c k : Nat) : Instr → Option UnitRow
  | .xch g x => some (xchRow s c k g x 0 false false)
  | .xchc g x => some (xchRow s c k g x 1 false true)
  | .xchl g x => some (xchRow s c k g x 2 true false)
  | .xchlc g x => some (xchRow s c k g x 3 true true)
  | _ => none

/-- mark, vac, setm and xst (R82). -/
def folioOps (s : State) (c k : Nat) : Instr → Option UnitRow
  | .mark g x =>
    let d := e.extra (s.touchBank (s.ctx c k).timed (at_ x).lvl (at_ x).pa) (at_ x).lvl
    let m := s.mem.level (at_ x).lvl c
    some ⟨g, x, 16, 4, acc x, ok x,
      d.2.pend c k (at_ x).lvl false (e.lat (at_ x).lvl (at_ x).pa) d.1
        (.land 16 (some (raw ((m.mark (at_ x).pa).setWidth 64))) (some (raw (if e.blank (at_ x) then 1 else 0))) 0)⟩
  | .vac g x =>
    let d := e.extra ((claimPlace e s (at_ x).lvl (at_ x).pa).touchBank (s.ctx c k).timed (at_ x).lvl (at_ x).pa) (at_ x).lvl
    some ⟨g, x, 16, 5, acc x, ok x && decide (s.xuCount c < 16),
      d.2.pend c k (at_ x).lvl true (e.lat (at_ x).lvl (at_ x).pa) d.1 (.vac (at_ x))⟩
  | .setm g x =>
    let a := s.pS c k 16 0
    let d := e.extra ((claimPlace e s (at_ x).lvl (at_ x).pa).touchBank (s.ctx c k).timed (at_ x).lvl (at_ x).pa) (at_ x).lvl
    some ⟨g, x, 16, 6, acc x,
      ok x && a.fine && decide (s.xuCount c < 16) && s.markAt (at_ x) == 0xFFFFFFFF#32 && a.val.setWidth 32 != 0xFFFFFFFF#32,
      d.2.pend c k (at_ x).lvl true (e.lat (at_ x).lvl (at_ x).pa) d.1 (.setm (at_ x) (a.val.setWidth 32))⟩
  | .xst g x => some ⟨g, x, 16, 7, [], true, s.pend c k 0 false 2 0 .xst⟩
  | _ => none
where
  /-- What the operation reads. -/
  e : Env := s.env c k 0
  /-- The folio at t. -/
  at_ (x : BitVec 10) : Loc :=
    let q := placed (e.reach (s.src c k x).val 16384 16384 true true)
    ⟨q.1, c, (s.src c k x).val.toNat, q.2.1⟩
  /-- Its access. -/
  acc (x : BitVec 10) : List Acc := [⟨(s.src c k x).val.toNat, 16384, false, true⟩]
  /-- It is reached and nothing else holds it. -/
  ok (x : BitVec 10) : Bool :=
    (s.src c k x).fine && (e.reach (s.src c k x).val 16384 16384 true true).isOk && rangeFree s c k (at_ x).lvl (at_ x).pa 16384

/-! ### The engine unit (R189 to R191, R225 to R228) -/

/-- A block of `len` bytes that an operation can read for its own use: in the carrel, aligned to `align`, not poisoned (R225, R281). -/
def blockFine (s : State) (c k : Nat) (va : Word) (len align : Nat) : Bool :=
  decide (va.toNat < 0x200000) && va.toNat % align == 0
    && ((List.range ((len + 15) / 16)).all fun i => !s.viewPoison c k 1 (va.toNat + 16 * i))

/-- An engine command whose checks pass and which is not held: the folios that a route-engine command writes are claimed, the commands in
flight count one more, and the command travels to its engine for a free time. -/
def commandRow (s : State) (c k : Nat) (g : BitVec 4) (x : BitVec 10) (code : Nat) : UnitRow :=
  let e := s.env c k 0
  let r := engineChecks code e
  let blk := r.toOption.getD 0
  let s1 := if code ≥ 3 then (blockRegs code blk).foldl (claimRegion e) s else s
  let y := s1.ctx c k
  let s2 := s1.setCtx c k { y with infl := y.infl + 1 }
  let fl : BitVec 7 := (s.pS c k 17 1).val.setWidth 7
  let cmd : Cmd :=
    { code := code, core := c, ctx := k, task := y.taskId, job := jobOf y.launch, launch := y.launch, block := BitVec.ofNat 512 blk,
      flags := fl, id := s2.free, releases := fl.getLsbD 1, done := false, snap := none, frames := engineFrames e code blk (fl.getLsbD 1),
      owner := (c, k) }
  ⟨g, x, 17, code, [⟨(s.pS c k 17 0).val.toNat, 64, false, true⟩],
    decide ((s.ctx c k).infl.toNat < 8) && r.isOk
      && (match (s.ctx c k).engWalk with
          | some w => decide (w ≤ s.clock)
          | none => (s.ctx c k).timed || (engineMissing code e).isEmpty),
    s2.sends (s2.clock + Config.freeNat s2.free + (if y.timed then 0 else e.injected)) c k (.engAcquire cmd)⟩

/-- The five commands. -/
def commands (s : State) (c k : Nat) : Instr → Option UnitRow
  | .sidx g x => some (commandRow s c k g x 0)
  | .sred g x => some (commandRow s c k g x 1)
  | .stopk g x => some (commandRow s c k g x 2)
  | .rpfx g x => some (commandRow s c k g x 3)
  | .rprm g x => some (commandRow s c k g x 4)
  | _ => none

/-- arm, bcst and ecnt (R190, R191, R228). -/
def engineOthers (s : State) (c k : Nat) : Instr → Option UnitRow
  | .bcst g x =>
    let e := s.env c k 0
    let a := (s.pS c k 17 0).val
    let fl := (s.pS c k 17 1).val
    let m := (s.pS c k 17 2).val
    let blk := s.viewN c k 1 a.toNat 16
    let d := deliver e s (BitVec.ofNat 512 (s.viewN c k 1 m.toNat 64)) blk
    some ⟨g, x, 17, 5,
      [⟨a.toNat, 16, false, true⟩, ⟨m.toNat, 64, false, true⟩, ⟨blk % 2 ^ 32, blk / 2 ^ 32 % 2 ^ 32, false, true⟩],
      (s.pS c k 17 0).fine && (s.pS c k 17 1).fine && (s.pS c k 17 2).fine && blockFine s c k a 16 16 && blockFine s c k m 64 64
        && decide (fl.toNat < 128) && (bcstBad blk).isNone,
      if fl.getLsbD 1 then
        d.2.pend c k 0 false d.1 0 (.bcastDone (fl.toNat / 16 % 8))
      else d.2⟩
  | .arm g x =>
    let a := (s.pS c k 17 0).val
    let t := s.src c k x
    let blk := s.viewN c k 1 a.toNat 16
    some ⟨g, x, 17, 6, [⟨a.toNat, 16, false, true⟩],
      (s.pS c k 17 0).fine && t.fine && blockFine s c k a 16 16 && (armBad blk).isNone,
      s.pend c k 0 false 8 0 (.arm (t.val.toNat % 8)
        { gen := BitVec.ofNat 16 (blk / 2 ^ 96), recv := 0, exp := BitVec.ofNat 11 (blk / 2 ^ 64 % 2 ^ 32 / 16),
          first := BitVec.ofNat 6 blk, count := BitVec.ofNat 7 (blk / 2 ^ 32), base := (s.ctx c k).regs.base, armed := true })⟩
  | .ecnt g x => some ⟨g, x, 17, 7, [], (s.src c k x).fine, s.pend c k 0 false 2 0 (.ecnt ((s.src c k x).val.setWidth 4))⟩
  | _ => none

/-! ### The network unit (R185 to R188, R204, R205) -/

/-- A reduction of target `va`: it acts at its slice after the latency Lg of the slice, with the launch's phase at issue. -/
def reduxRow (s : State) (c k : Nat) (g : BitVec 4) (x : BitVec 10) (o code len : Nat) (va v : Word) (ok : Bool) : UnitRow :=
  let e := s.env c k 0
  let r := e.access va len len false true
  let pa := (placed r).2.1
  let l := (s.ctx c k).launch
  let s1 := s.touchBank (s.ctx c k).timed 2 pa
  let d := e.extra s1 2
  ⟨g, x, 18, o, [⟨va.toNat, len, true, false⟩], ok && lvlOf va.toNat == some 2 && r.isOk,
    d.2.pend c k 2 true (e.lat 2 pa) d.1 (.redux code v ⟨2, c, va.toNat, pa⟩ (d.2.launch l).phase l)⟩

/-- The reductions, as R186 lists them, and rclr (R187). -/
def reductions (s : State) (c k : Nat) : Instr → Option UnitRow
  | .radd g x => some (word g x 0)
  | .rmin g x => some (word g x 1)
  | .rmax g x => some (word g x 2)
  | .rand g x => some (word g x 3)
  | .ror g x => some (word g x 4)
  | .rxor g x => some (word g x 5)
  | .rfadd g x =>
    some (reduxRow s c k g x 6 6 64 (s.pS c k 18 0).val (s.src c k x).val ((s.pS c k 18 0).fine && (s.src c k x).fine))
  | .rclr g x =>
    let n := (s.pS c k 18 2).val.toNat % 4
    some (reduxRow s c k g x 8 8 (if n = 0 then 32 else 64) (s.src c k x).val (BitVec.ofNat 64 n)
      ((s.pS c k 18 2).fine && (s.src c k x).fine))
  | _ => none
where
  /-- A reduction of a word. -/
  word (g : BitVec 4) (x : BitVec 10) (o : Nat) : UnitRow :=
    reduxRow s c k g x o o 32 (s.pS c k 18 0).val (s.src c k x).val ((s.pS c k 18 0).fine && (s.src c k x).fine)

/-- rrd (R187): the value at the start of the phase, by the kind c[1:0]. -/
def readTarget (s : State) (c k : Nat) : Instr → Option UnitRow
  | .rrd g x =>
    let e := s.env c k 0
    let va := (s.src c k x).val
    let n := (s.pS c k 18 2).val.toNat % 4
    let len := if n = 0 then 32 else 64
    let r := e.access va len len true false
    let pa := (placed r).2.1
    let l := (s.ctx c k).launch
    let v := (Target.read (n != 0) (s.viewN c k 2 pa len)).start (s.launch l).phase l
    let bad := (List.range (len / 16)).any fun i => s.viewPoison c k 2 (pa + 16 * i)
    let d := e.extra (s.touchBank (s.ctx c k).timed 2 pa) 2
    let w := fun (b : Word) => some (LVal.s ⟨b, 0, bad⟩)
    let z := ofLanes fun l =>
      if l < 4 then (cellRaw v.1 v.2).extractLsb' (32 * l) 32 else if l = 4 then v.2.setWidth 32 else 0
    some ⟨g, x, 18, 7, [⟨va.toNat, len, false, false⟩],
      (s.pS c k 18 2).fine && (s.src c k x).fine && lvlOf va.toNat == some 2 && r.isOk,
      d.2.pend c k 2 false (e.lat 2 pa) d.1
        (if n = 0 then .land 18 none (w (BitVec.ofInt 64 v.1)) 0
         else if n = 1 then .land 18 none (w ((cellF32 v.1 v.2).1.setWidth 64)) (cellF32 v.1 v.2).2
         else .land 18 (some (.v ⟨z, 0, if bad then 0x1F else 0, false, false⟩)) (w (v.2.setWidth 64)) 0)⟩
  | _ => none

/-- A port that the core may use (R204): it is bound, to this core. -/
def portBound (s : State) (c p : Nat) : Bool :=
  decide (p < 48) && (s.port p).bound.isSome && (s.port p).core.toNat == c

/-- send and recv of a timed context (R204, R205). A send away from a frame's start is counted and sends nothing; a recv finds the frame
whose window holds its position, or a void frame. -/
def dratrix (s : State) (c k : Nat) : Instr → Option UnitRow
  | .send g x =>
    let p := (s.pS c k 18 0).val.toNat % 64
    let d := s.pV c k 18 3
    let n := s.pos (s.ctx c k)
    let q := s.port p
    let f : Frame :=
      { number := BitVec.ofNat 32 (n / 16), live := (s.pS c k 18 1).val.setWidth 16, core := BitVec.ofNat 9 c, sent := true,
        poison := partPoison d.poison, payload := d.bits, check := 0 }
    some ⟨g, x, 18, 9, [], (s.pS c k 18 0).fine && (s.pS c k 18 1).fine && !d.mark && (s.ctx c k).timed && portBound s c p,
      if n % 16 = 0 then { s with ports := mput s.ports p { q with sent := q.sent ++ [frameSealed f] } }
      else { s with ports := mput s.ports p { q with misplaced := satInc q.misplaced } }⟩
  | .recv g x =>
    let p := (s.pS c k 18 0).val.toNat % 64
    let q := s.port p
    let w : Int := ((s.pos (s.ctx c k) : Int) - q.ld.toNat) / 16
    let n := BitVec.ofInt 32 w
    let none_ := fun (mark : Bool) =>
      (s.lands c k 18 2 (some (.v ⟨0, 0, allLanes, mark, false⟩)) (some (raw (n ++ 0x80000000#32))) 0).pend c k 0 false 2 0
        (.voidTaken p)
    some ⟨g, x, 18, 10, [], (s.pS c k 18 0).fine && (s.ctx c k).timed && portBound s c p,
      match q.frameAt (16 * w) (s.launch (s.ctx c k).launch).t0 with
      | some f =>
        if f.sent && frameGood f then
          s.lands c k 18 2 (some (.v ⟨f.payload, 0, framePoison f.poison, false, false⟩))
            (some (raw (n ++ (0#7 ++ f.core ++ f.live)))) 0
        else none_ (frameGood f)
      | none => none_ true⟩
  | _ => none

/-- sendb and recvb (R188). -/
def messages (s : State) (c k : Nat) : Instr → Option UnitRow
  | .sendb g x =>
    let d := s.pV c k 18 3
    let t := s.src c k x
    let to_ := t.val.toNat % 512
    let q := if (s.ctx c k).timed then (0, s) else s.draw
    some ⟨g, x, 18, 11, [], d.any 0xFFFF && t.fine,
      q.2.pend c k 0 false (oneWay (coreRouter c) (coreRouter to_)) q.1
        (.msg to_ (t.val.toNat / 512 % 4) ⟨BitVec.ofNat 2 k, BitVec.ofNat 9 c, d.bits.extractLsb' 0 512, 0⟩ (s.ctx c k).launch)⟩
  | .recvb g x =>
    let y := s.ctx c k
    some ⟨g, x, 18, 12, [], true,
      match y.mailbox with
      | m :: rest =>
        if m.arrived = s.clock then s.lands c k 18 2 (some (.v VVal.zero)) (some (raw 0)) 0
        else
          (s.setCtx c k { y with mailbox := rest }).lands c k 18 2 (some (.v ⟨m.data.setWidth 4096, 0, 0, false, false⟩))
            (some (raw ((1#1 ++ (0#5 ++ m.srcCtx ++ m.srcCore)).setWidth 64))) 0
      | [] => s.lands c k 18 2 (some (.v VVal.zero)) (some (raw 0)) 0⟩
  | _ => none

/-! ### mx (R145 to R150) -/

/-- The array of a core. -/
def State.arr (s : State) (c : Nat) : Arr := (s.core c).arr

/-- The operations of mx that set a field of a pipe, the anchor or a residency record at +2. -/
def mxSets (s : State) (c k : Nat) : Instr → Option UnitRow
  | .fbase g x => some (pipe g x 0 true fun t => .pipe (p % 4) 0 t)
  | .fstr g x => some (pipe g x 1 true fun t => .pipe (p % 4) 1 t)
  | .fprog g x =>
    let r := pipe g x 3 true fun t => .pipe (p % 4) 2 t
    let q := (s.arr c).pipe (p % 4)
    some { r with ok := r.ok && q.cv && decide ((s.src c k x).val.toNat ≤ q.rows) }
  | .pbase g x => some (pipe g x 4 false fun t => .pipe 4 0 t)
  | .pstr g x => some (pipe g x 5 false fun t => .pipe 4 1 t)
  | .anch g x => some (pipe g x 6 false fun t => .anchor (t.setWidth 10))
  | .resid g x =>
    let tag : Tag := (s.pS c k 20 1).val.setWidth 6
    let r := pipe g x 8 true fun t => .resid (p % 4) (tag ++ t.setWidth 17)
    some { r with ok := r.ok && (s.pS c k 20 1).fine && (!(s.src c k x).val.getLsbD 16 || isArrayFmt tag) }
  | _ => none
where
  /-- Port a. -/
  p : Nat := (s.pS c k 20 0).val.toNat
  /-- An operation of t, and of port a where it reads it. -/
  pipe (g : BitVec 4) (x : BitVec 10) (o : Nat) (readsA : Bool) (ev : Word → Ev) : UnitRow :=
    ⟨g, x, 20, o, [], (!readsA || (s.pS c k 20 0).fine) && (s.src c k x).fine, s.pend c k 0 false 2 0 (ev (s.src c k x).val)⟩

/-- The other operations of mx. -/
def mxOthers (s : State) (c k : Nat) : Instr → Option UnitRow
  | .fcdx g x =>
    let a := s.pS c k 20 0
    let t := s.src c k x
    let p := a.val.toNat % 8
    let v := BitVec.ofNat 512 (s.viewN c k 1 t.val.toNat 64)
    some ⟨g, x, 20, 2, [⟨t.val.toNat, 64, false, true⟩], a.fine && t.fine && decide (p ≤ 4) && blockFine s c k t.val 64 64,
      (s.pend c k 0 false 8 0 (.codex p v (codexOk p v))).lands c k 20 8 none (some (raw (if codexOk p v then 0 else 1))) 0⟩
  | .live g x =>
    let a := s.pS c k 20 0
    let t := s.src c k x
    let p := a.val.toNat % 4
    let q := (s.arr c).pipe p
    let n := t.val.toNat
    let put := fun (s : State) (v y : Nat) =>
      (s.pend c k 0 false 2 0 (.pipe p 3 (BitVec.ofNat 64 v))).lands c k 20 2 none (some (raw (BitVec.ofNat 64 y))) 0
    some ⟨g, x, 20, 7, [], a.fine && t.fine && q.cv && (decide (n ≤ q.bound) || q.flagBits.testBit 0),
      if n ≤ q.bound then put s n 0 else put (s.setDefer (s.ctx c k).launch) q.bound (n - q.bound)⟩
  | .sfst g x =>
    let t := s.src c k x
    let es := (s.arr c).sum (t.val.toNat % 64)
    let z := ofLanes fun n =>
      let q := es.getD n Entry.zero
      (BitVec.ofBool q.wov).setWidth 32 ||| ((BitVec.ofBool q.nan).setWidth 32 <<< 1) ||| (q.rho.setWidth 32 <<< 8)
    some ⟨g, x, 20, 9, [], t.fine,
      s.lands c k 20 6 (some (.v (vec z 0))) (some (raw (BitVec.ofNat 64 (es.countP fun q => q.wov || q.nan)))) 0⟩
  | .gmode g x =>
    let t := s.src c k x
    let a := s.arr c
    let m := t.val.getLsbD 0
    some ⟨g, x, 20, 10, [], t.fine && !s.arrayBeats c,
      (s.setArr c (if m = a.grad then a else { a with grad := m, weights := [], accs := [] })).lands c k 20 2 none
        (some (raw (if a.grad then 1 else 0))) 0⟩
  | .mxst g x =>
    let t := s.src c k x
    some ⟨g, x, 20, 11, [], t.fine, s.pend c k 0 false 2 0 (.mxst (t.val.toNat % 16))⟩
  | _ => none

/-! ### sy (R10, R88, R133, R278, R279) -/

/-- The operations of sy but for the returns of trec. -/
def syRows (s : State) (c k : Nat) : Instr → Option UnitRow
  | .trecRead g x =>
    let t := (s.src c k x).val
    some ⟨g, x, 21, 0, [], (s.src c k x).fine && t != BitVec.allOnes 64 && t != BitVec.allOnes 64 - 1,
      if t.toNat < 16 then both (mget (s.ctx c k).record.words 0 t.toNat) 0 else both 0 1⟩
  | .budg g x => some ⟨g, x, 21, 1, [], (s.src c k x).fine, both (s.ctx c k).regs.budget 0⟩
  | .gcyc g x => some ⟨g, x, 21, 2, [], (s.src c k x).fine, both s.count s.groupWord⟩
  | .ctx g x =>
    let a := s.pS c k 21 0
    let t := s.src c k x
    let n := a.val.toNat % 16
    let s1 := s.pend c k 0 false 2 0 (.ctxRead (BitVec.ofBool (a.val.getLsbD 8) ++ BitVec.ofNat 8 n))
    some ⟨g, x, 21, 3, [], a.fine && t.fine, if a.val.getLsbD 8 then s1.pend c k 0 false (if n = 0 then 3 else 2) 0 (.ctxWrite n t.val) else s1⟩
  | .trld g x =>
    let a := s.pS c k 21 0
    let t := s.src c k x
    some ⟨g, x, 21, 4, [], a.fine && t.fine, s.pend c k 0 false 2 0 (.recipe (a.val.toNat % 16) (t.val.setWidth 12))⟩
  | .sbase g x =>
    let a := s.pS c k 21 0
    let t := s.src c k x
    let r := (s.ctx c k).regs
    let lim : BitVec 32 := a.val.setWidth 32 &&& 0xFFFFFE00#32
    let e : Env := { s.env c k 0 with sbase := some (t.val, lim) }
    some ⟨g, x, 21, 5, [], a.fine && t.fine && !e.breaksBurst,
      (s.setRegs c k { r with spill := { r.spill with obase := t.val, olimit := lim } }).lands c k 21 2 (some (raw r.spill.obase))
        (some (raw r.spill.depth)) 0⟩
  | .seed g x => some ⟨g, x, 21, 6, [], (s.src c k x).fine, s.pend c k 0 false 2 0 (.seed (s.src c k x).val)⟩
  | .lparm g x =>
    let t := (s.src c k x).val
    some ⟨g, x, 21, 7, [], (s.src c k x).fine,
      if t.toNat < 64 then both (mget (s.launch (s.ctx c k).launch).params 0 t.toNat) 0 else both 0 1⟩
  | _ => none
where
  /-- z and y land at +2. -/
  both (z y : Word) : State := s.lands c k 21 2 (some (raw z)) (some (raw y)) 0

/-! ### The control slot (R44 to R60, R124, R160, R175, R200, R212, R234) -/

/-- A control operation when its conditions hold: its guard, its conditions, the state in which it has acted, and its flow (R44). -/
structure CtlRow where
  g : BitVec 4
  ok : Bool
  post : State
  flow : Flow

/-- What a control operation does, by its row, when its fields are not reserved (R45, R57, R175). -/
abbrev State.Controls (s : State) (c k : Nat) (i : Instr) (r : CtlRow) : Prop :=
  s.Slot c k r.g → ctlFieldsOk i = true → r.ok = true →
    exec i s = .next (s.issued r.post c k (bundleOfCtl ((ctlOf i).getD 0)) [] false r.flow)

/-- A register that the control slot reads (R44, R281). -/
def State.reg (s : State) (c k : Nat) (n : BitVec 6) : SVal := (s.ctx c k).regs.rdS n.toNat
/-- The context with other registers. -/
def State.withRegs (s : State) (c k : Nat) (f : Regs → Regs) : State := s.setRegs c k (f (s.ctx c k).regs)
/-- The bundle of the context. -/
def State.pc (s : State) (c k : Nat) : BitVec 13 := (s.ctx c k).pc

/-- Branches, calls and long immediates (R35, R46 to R49, R124). -/
def branches (s : State) (c k : Nat) : Instr → Option CtlRow
  | .nop g => some ⟨g, true, s, .fall⟩
  | .limm g _ => some ⟨g, true, s, .fall⟩
  | .limmh g _ => some ⟨g, true, s, .fall⟩
  | .br g o => some ⟨g, true, s, .take (s.pc c k + o.setWidth 13)⟩
  | .jmpi g n => some ⟨g, (s.reg c k n).fine, s, .take ((s.reg c k n).val.setWidth 13)⟩
  | .brnone g o => some ⟨g, true, s, if r.top = 0 then .take (s.pc c k + o.setWidth 13) else .fall⟩
  | .brany g o => some ⟨g, true, s, if r.top = 0 then .fall else .take (s.pc c k + o.setWidth 13)⟩
  | .call g n o => some ⟨g, !r.atEnd (s.pc c k), linked n, .go (s.pc c k + o.setWidth 13)⟩
  | .calli g n m => some ⟨g, (s.reg c k n).fine && !r.atEnd (s.pc c k), linked m, .go ((s.reg c k n).val.setWidth 13)⟩
  | .ret g n =>
    let v := (s.reg c k n).val
    let floor : BitVec 3 := v.extractLsb' 16 3
    some ⟨g, (s.reg c k n).fine && !r.atEnd (s.pc c k) && decide (r.depth.toNat ≤ r.floor.toNat) && v.extractLsb' 13 3 == 0
        && v.extractLsb' 19 45 == 0 && decide (floor.toNat ≤ r.floor.toNat),
      s.withRegs c k fun r => { r with floor := floor }, .go (v.setWidth 13)⟩
  | _ => none
where
  /-- The registers of the context. -/
  r : Regs := (s.ctx c k).regs
  /-- The link register takes the frame floor and the following bundle; the floor rises to the depth (R47). -/
  linked (n : BitVec 6) : State :=
    s.withRegs c k fun r =>
      { r.wrS n.toNat ⟨BitVec.ofNat 64 (65536 * r.floor.toNat + (s.pc c k + 1).toNat), 0, false⟩ with floor := r.depth }

/-- Where a loop of level `kk` with distance `d` may open (R57, R59): at the depth, its end within the codestore and within the body of
the loop around it in the same frame, and not in the end bundle of that loop. -/
def loopFits (r : Regs) (pc : BitVec 13) (kk : BitVec 2) (d : BitVec 10) : Bool :=
  kk.toNat == r.depth.toNat && d != 0 && decide (pc.toNat + d.toNat ≤ 8191)
    && (decide (kk.toNat ≤ r.floor.toNat) || decide (pc.toNat + d.toNat ≤ (r.loop (kk.toNat - 1)).stop.toNat)) && !r.atEnd pc

/-- A loop instruction with count `n` (R57): a count of 0 goes past the body, through the loop event of the loop around it when their
ends are one; any other opens the level. -/
def loopRow (s : State) (c k : Nat) (g : BitVec 4) (kk : BitVec 2) (n : Word) (d : BitVec 10) (stm1 : BitVec 3) (rot : Bool) (ok : Bool) :
    CtlRow :=
  let r := (s.ctx c k).regs
  let pc := s.pc c k
  let stop := pc + d.setWidth 13
  let l : Loop := { remain := n + stm1.setWidth 64, iter := 0, act := true, rot := rot, stm1 := stm1, start := pc + 1, stop := stop }
  let opened := { r.setLoop kk.toNat l with depth := r.depth + 1 }
  ⟨g, ok && loopFits r pc kk d,
    if n = 0 then s
    else s.setRegs c k
      (if rot then (List.range stm1.toNat).foldl (fun r j => r.wrQ (9 + j) false) (opened.wrQ 8 true) else opened),
    if n = 0 then
      (if r.floor.toNat < kk.toNat ∧ (r.loop (kk.toNat - 1)).stop = stop then .event stop else .go (stop + 1))
    else .go (pc + 1)⟩

/-- loop, loopi and brk (R57, R60). -/
def loopOps (s : State) (c k : Nat) : Instr → Option CtlRow
  | .loop g kk n d st r => some (loopRow s c k g kk (s.reg c k n).val d st (r == 1) (s.reg c k n).fine)
  | .loopi g kk n d st r => some (loopRow s c k g kk (n.setWidth 64) d st (r == 1) true)
  | .brk g kk =>
    let r := (s.ctx c k).regs
    some ⟨g, decide (kk.toNat < r.depth.toNat) && decide (r.floor.toNat ≤ kk.toNat), s.withRegs c k fun r => r.popFrom kk.toNat,
      .go ((r.loop kk.toNat).stop + 1)⟩
  | _ => none

/-- The mask stack (R124). -/
def maskOps (s : State) (c k : Nat) : Instr → Option CtlRow
  | .mpush g n =>
    some ⟨g, decide (m.length < 16), put (m ++ [top &&& (s.ctx c k).regs.rdM n.toNat]) (above.drop 1), .fall⟩
  | .mpop g => some ⟨g, !m.isEmpty, put m.dropLast (top :: above), .fall⟩
  | .minv g n => some ⟨g, !m.isEmpty, put (m.dropLast ++ [top &&& ~~~((s.ctx c k).regs.rdM n.toNat)]) above, .fall⟩
  | .minvElse g =>
    some ⟨g, !m.isEmpty, put (m.dropLast ++ [(m.dropLast.getLast?.getD (BitVec.allOnes 128)) &&& ~~~top]) above, .fall⟩
  | _ => none
where
  /-- The stack, its top last. -/
  m : List Mask := (s.ctx c k).regs.masks
  /-- Its top; all lanes with an empty stack (R123). -/
  top : Mask := m.getLast?.getD (BitVec.allOnes 128)
  /-- The entries above the stack's depth, the nearest first. -/
  above : List Mask := (s.ctx c k).regs.above
  /-- The stack and what stands above it replaced. -/
  put (x y : List Mask) : State := s.withRegs c k fun r => { r with masks := x, above := y }

/-- The context waits from now on. -/
def State.waiting (s : State) (c k : Nat) (w : Wait) : State :=
  s.setCtx c k { s.ctx c k with status := .waiting w, readyAt := s.clock + 1 }

/-- Whether the check of a wait of R50 holds in this clock: a completion counter has reached its value, the arrival counter its bytes, or, in
the cycles 15 modulo 16, the carrel word is as asked, or poisoned. -/
def State.met (s : State) (c k : Nat) : Wait → Bool
  | .eng e n => decide (n.toNat ≤ (mget (s.ctx c k).ecnt 0 e.toNat).toNat)
  | .arr i => (mget (s.ctx c k).arr Arrival.zero i.toNat).done
  | .xcnt n => decide (n.toNat ≤ (s.ctx c k).regs.xcnt.toNat)
  | .weq a v => s.now % 16 == 15 && (s.viewPoison c k 1 a.toNat || BitVec.ofNat 64 (s.viewN c k 1 a.toNat 8) == v)
  | .wne a v => s.now % 16 == 15 && (s.viewPoison c k 1 a.toNat || BitVec.ofNat 64 (s.viewN c k 1 a.toNat 8) != v)
  | _ => false

/-- Whether a wait for the count or for what is in flight is over in this clock (R51, R160, R175, R234). -/
def State.over (s : State) (c k : Nat) : Wait → Bool
  | .waitc v => decide (v.toNat ≤ s.pos (s.ctx c k))
  | .untilPos n => decide (n ≤ s.pos (s.ctx c k))
  | .carrel => !(s.pendingAt c k 1 0 true true none) && !(s.burstInCarrel c k (s.ctx c k))
  | .hbm loads stores n => !(s.pendingAt c k 3 0 loads stores (some n))
  | _ => false

/-- Waits of R50, whose condition is checked in a clock for the next one. -/
def Wait.checked : Wait → Bool
  | .eng .. | .arr _ | .xcnt _ | .weq .. | .wne .. => true
  | _ => false

/-- The waits and fences (R50 to R52, R160, R234). -/
def waitOps (s : State) (c k : Nat) : Instr → Option CtlRow
  | .waitEng g e n => some (free g (s.reg c k n).fine (.eng e (s.reg c k n).val))
  | .waitArr g e => some (free g true (.arr e))
  | .waitXcnt g n => some (free g (s.reg c k n).fine (.xcnt (s.reg c k n).val))
  | .waitWeq g n m =>
    some (free g ((s.reg c k n).fine && (s.reg c k m).fine && decide ((s.reg c k n).val.toNat < 0x200000))
      (.weq ((s.reg c k n).val &&& 0xFFFFFFFFFFFFFFF8#64) (s.reg c k m).val))
  | .waitWne g n m =>
    some (free g ((s.reg c k n).fine && (s.reg c k m).fine && decide ((s.reg c k n).val.toNat < 0x200000))
      (.wne ((s.reg c k n).val &&& 0xFFFFFFFFFFFFFFF8#64) (s.reg c k m).val))
  | .waitc g n => some ⟨g, (s.reg c k n).fine, s.waiting c k (.waitc (BitVec.ofNat 64 (max (s.pos (s.ctx c k) + 1) (s.reg c k n).val.toNat))), .fall⟩
  | .yield g =>
    some ⟨g, true, if (s.ctx c k).timed then s else s.setCtx c k { s.ctx c k with yieldFor := s.clock + 1 }, .fall⟩
  | .cfence g => some ⟨g, true, s.waiting c k .carrel, .fall⟩
  | .sfenceAcq g => some ⟨g, true, s.waiting c k (.hbm true false s.free), .fall⟩
  | .sfenceRel g => some ⟨g, true, s.waiting c k (.hbm false true s.free), .fall⟩
  | .sfenceAcqRel g => some ⟨g, true, s.waiting c k (.hbm true true s.free), .fall⟩
  | _ => none
where
  /-- A wait of a free context (R50). -/
  free (g : BitVec 4) (ok : Bool) (w : Wait) : CtlRow := ⟨g, ok && !(s.ctx c k).timed, s.waiting c k w, .fall⟩

/-- A timed context issues phase (R175, R176): it opens a boundary of its launch, or joins the one whose window is open, and waits for the
window's end, of at least the hold latency H; a free context waits for its launch's next boundary. -/
def phaseRow (s : State) (c k : Nat) (g : BitVec 4) (scope : Nat) (w : BitVec 20) : CtlRow :=
  let y := s.ctx c k
  let x := s.launch y.launch
  let w' := max w.toNat s.gs.hLat
  let n := s.pos y
  let fresh : Boundary :=
    { opened := n, window := w', scope := scope, merged := 0, overrun := false, final := false, closed := false, joined := [(c, k)],
      mark := 0 }
  let x' : Launch :=
    match x.boundary with
    | some b =>
      if n < b.opened + b.window then
        { x with skew := if n = b.opened then x.skew else satInc x.skew, boundary := some { b with joined := b.joined ++ [(c, k)] } }
      else { x with boundary := some fresh, lastScope := scope }
    | none => { x with boundary := some fresh, lastScope := scope }
  ⟨g, s.hasTimed y.launch, if y.timed then (s.setLaunch y.launch x').waiting c k (.untilPos (n + w')) else s.waiting c k .boundary, .fall⟩

/-- phase, tune, sysc, halt and ckend (R54, R55, R175, R200, R212). -/
def systemOps (s : State) (c k : Nat) : Instr → Option CtlRow
  | .phaseLaunch g w => some (phaseRow s c k g 0 w)
  | .phaseGroup g w => some (phaseRow s c k g 1 w)
  | .tune g =>
    some ⟨g, true, if (s.ctx c k).timed ∧ (s.gs.due = 1 ∨ s.gs.due = 3) then { s with gs := { s.gs with tune := s.gs.due.toNat } } else s,
      .fall⟩
  | .sysc g n =>
    let args := (List.range 7).map fun i => ((s.ctx c k).regs.rdS (i + 1)).val
    let s1 := s.post (s.clock + 1 + Config.freeNat s.free) true c k (.service n args (s.ctx c k).launch)
    some ⟨g, true, if (s.ctx c k).timed then s1 else s1.waiting c k (.service s.free), .fall⟩
  | .halt g => some ⟨g, true, s.setCtx c k { s.ctx c k with status := .halted }, .fall⟩
  | .ckend g => some ⟨g, true, s, .fall⟩
  | _ => none

/-! ### Beats (R151 to R157) -/

/-- A beat when its conditions hold: its guard, its reads, its conditions, and the state in which it has acted. -/
structure BeatRow where
  g : BitVec 4
  accs : List Acc
  ok : Bool
  post : State

/-- What a beat does, by its row, when no region stands open beside it (R213). -/
abbrev State.Beats (s : State) (c k : Nat) (i : Instr) (r : BeatRow) : Prop :=
  s.Slot c k r.g → s.regionBeside c k = false → (s.env c k 0).Clear r.accs → r.ok = true →
    exec i s = .next (s.issued r.post c k (bundleOfBeat ((beatOf i).getD 0)) [] (holdsCarrel r.accs) .fall)

/-- The reads of a beat with their places; none when one of them fails its checks. -/
def beatPlaces (s : State) (c k : Nat) (rs : List BRead) : Option (List (BRead × BPlace)) := ((s.env c k 0).beatReads rs).toOption
/-- The numbers that the reads of a beat find. -/
def beatNums (s : State) (c k : Nat) (rs : List (BRead × BPlace)) : List Nat := rs.map fun q => (s.env c k 0).beatN q.1 q.2
/-- No read of a beat touches a poisoned part (R152). -/
def beatClean (s : State) (c k : Nat) (rs : List (BRead × BPlace)) : Bool :=
  rs.all fun q => ((s.env c k 0).beatPoison q.1 q.2).isNone

/-- push (R153): the row of the push pipe lands in the course's row operand + progress at +Lr - 4. -/
def pushRow (s : State) (c k : Nat) (g : BitVec 4) (q row : Nat) : BeatRow :=
  let e := s.env c k 0
  let x := (s.arr c).pipe 4
  let j := row + x.progress.toNat
  let reads := x.rowRead x.progress.toNat :: pushScale x j
  let rs := (beatPlaces s c k reads).getD []
  let nums := beatNums s c k rs
  let sc := (nums.drop 1).headD 0
  let b16 := x.fmt == 3
  ⟨g, accOf reads,
    !(s.arr c).grad && x.cv && decide (x.progress.toNat < x.rows) && decide (j ≤ if b16 then 127 else 255)
      && (beatPlaces s c k reads).isSome && x.fmt == (mget (s.arr c).resid 0 q).extractLsb' 17 6
      && (x.uniform || !badContainers 128 sc) && beatClean s c k rs,
    e.beatPend (stepPipe e (touchReads e s rs) 4) rs (e.beatLat rs - 4) (.pushRow q j b16 (pushValues x (nums.headD 0) sc))⟩

/-- A feed (R154): a row slot at or beyond the live count, or whose fret names no expert, only moves the pipe on; any other is fed
against its course, and its terms land in entry `n` at +256 + Lr. -/
def feedsRow (s : State) (c k : Nat) (g : BitVec 4) (op p n : Nat) (accumulate : Bool) : BeatRow :=
  let e := s.env c k 0
  let x := (s.arr c).pipe p
  let idle := decide (x.live.toNat ≤ x.progress.toNat)
  let fr := if idle then [] else (beatPlaces s c k (fretRead x)).getD []
  let row := if idle then none else feedRow x ((beatNums s c k fr).headD 0)
  let reads := x.rowRead x.progress.toNat :: x.scaleRead x.progress.toNat
  let rs := (beatPlaces s c k reads).getD []
  let nums := beatNums s c k rs
  let sc := (nums.drop 1).headD 0
  ⟨g, accOf (feedReads e p),
    !(s.arr c).grad && x.cv && decide (x.progress.toNat < x.rows) && (idle || (beatPlaces s c k (fretRead x)).isSome)
      && (match row with
          | none => beatClean s c k fr
          | some r =>
            (beatPlaces s c k reads).isSome && (x.fmt == 3) == ((mget (s.arr c).resid 0 r.course).extractLsb' 17 6 == 3)
              && (x.uniform || !badContainers 8 sc) && (tagMiss e x p r).isOk && beatClean s c k (fr ++ rs)),
    match row with
    | none => stepPipe e (touchReads e s fr) p
    | some r =>
      e.beatPend (stepPipe e (touchReads e s (fr ++ rs)) p) (fr ++ rs) (256 + e.beatLat (fr ++ rs))
        (.feedSum n op accumulate (feedColumns (s.arr c) op r.course x.fmt (rowValues x (nums.headD 0) sc)))⟩

/-- gfeed (R157): the rows of a feed pipe and of the push pipe, and the products of their elements. -/
def gfeedRow (s : State) (c k : Nat) (g : BitVec 4) (p : Nat) : BeatRow :=
  let e := s.env c k 0
  let a := s.arr c
  let x := a.pipe p
  let y := a.pipe 4
  let idle := decide (x.live.toNat ≤ x.progress.toNat)
  let fr := if idle then [] else (beatPlaces s c k (fretRead x)).getD []
  let row := if idle then none else feedRow x ((beatNums s c k fr).headD 0)
  let xReads := x.rowRead x.progress.toNat :: x.scaleRead x.progress.toNat
  let yReads := y.rowRead y.progress.toNat :: y.scaleRead y.progress.toNat
  let xr := (beatPlaces s c k xReads).getD []
  let yr := (beatPlaces s c k yReads).getD []
  let xn := beatNums s c k xr
  let yn := beatNums s c k yr
  let xs := (xn.drop 1).headD 0
  let ys := (yn.drop 1).headD 0
  let all := fr ++ xr ++ yr
  ⟨g, accOf (gfeedReads e p),
    a.grad && x.cv && decide (x.progress.toNat < x.rows) && y.cv && decide (y.progress.toNat < y.rows)
      && (idle || (beatPlaces s c k (fretRead x)).isSome)
      && (match row with
          | none => beatClean s c k fr
          | some r =>
            (beatPlaces s c k xReads).isSome && (beatPlaces s c k yReads).isSome
              && (x.fmt == 3) == ((mget a.resid 0 r.course).extractLsb' 17 6 == 3)
              && (y.fmt == 3) == ((mget a.resid 0 r.course).extractLsb' 17 6 == 3)
              && (x.uniform || !badContainers 8 xs) && (y.uniform || !badContainers 8 ys) && (tagMiss e x p r).isOk
              && beatClean s c k all),
    match row with
    | none => stepPipe e (stepPipe e (touchReads e s fr) p) 4
    | some r =>
      e.beatPend (stepPipe e (stepPipe e (touchReads e s all) p) 4) all (256 + e.beatLat all)
        (.gfeedSum r.course (x.fmt == 3) a.anchor (rowValues x (xn.headD 0) xs) (rowValues y (yn.headD 0) ys))⟩

/-- A drain of entries whose residues hold (R156, R157): each is converted, mx.z takes the results at +6, and the flags of every column
are raised. -/
def drainRow (s : State) (c k : Nat) (g : BitVec 4) (ok : Bool) (es : List Entry) : BeatRow :=
  let v := fun (x : Entry) => convertEntry x (s.arr c).anchor.toInt
  ⟨g, [], ok && (residueColumn (s.env c k 0) es).isNone,
    s.lands c k 20 6 (some (.v (vec (ofLanes fun n => (v (es.getD n Entry.zero)).1) 2))) none
      (es.foldl (fun f x => f ||| (v x).2) 0)⟩

/-- The beats. -/
def beats (s : State) (c k : Nat) : Instr → Option BeatRow
  | .push g q row => some (pushRow s c k g q.toNat row.toNat)
  | .feed g p n acc => some (feedsRow s c k g 0 p.toNat n.toNat (acc == 1))
  | .feedAbsd g p n acc => some (feedsRow s c k g 1 p.toNat n.toNat (acc == 1))
  | .feedCmps g p n acc => some (feedsRow s c k g 2 p.toNat n.toNat (acc == 1))
  | .gfeed g p => some (gfeedRow s c k g p.toNat)
  | .drain g n => some (drainRow s c k g true ((s.arr c).sum n.toNat))
  | .gdrain g q n => some (drainRow s c k g (s.arr c).grad ((s.arr c).acc q.toNat n.toNat))
  | .clr g n => some ⟨g, [], true, s.pend c k 0 false 264 0 (.clrSum n.toNat)⟩
  | .gclr g q => some ⟨g, [], (s.arr c).grad, s.pend c k 0 false 264 0 (.clrAcc q.toNat)⟩
  | _ => none

/-! ### Traps and returns (R271 to R277) -/

/-- The context after a return from a trap at its bundle `pc` (R275): the record's loop levels, control word and burst progress are
restored and the record is not valid; a resume goes to the record's resume bundle, and a skip of a bundle that had not committed
falls from the record's bundle. -/
def Ctx.returned (y : Ctx) (skip : Bool) : Ctx :=
  let w0 := mget y.record.words 0 0
  let x := trapRestore y
  if skip && w0.extractLsb' 26 6 != 2 then
    { x with regs := (fallFrom x.regs (w0.extractLsb' 0 13)).1, pc := (fallFrom x.regs (w0.extractLsb' 0 13)).2 }
  else { x with pc := w0.extractLsb' 13 13 }

/-- The state after a bundle that returns from a trap has committed: `t` is the state in which its slots have acted. -/
def State.returns (s t : State) (c k : Nat) (word : BitVec 256) (skip : Bool) : State :=
  let y := ((t.ctx c k).returned skip).charged.dropLoops
  let x := ((t.core c).setCtx k y).chose k (s.ctx c k).timed (decide (y.yieldFor = s.clock + 1)) word [21] false
  { s with
    cores := mput s.cores c x
    agenda := s.agenda ++ newOps s.agenda.length t.free t.agenda
    free := t.free
    claims := t.claims
    banks := t.banks
    ports := t.ports
    gs := t.gs
    ctl := { s.ctl with launches := t.ctl.launches }
    turn := .idle
    tried := (c, k) :: s.tried }

/-- The state after a bundle has trapped: it has used its turn and its issue choice, no bank cycle, and has committed nothing (R272,
R274); `units` are the units that it triggers. -/
def State.trapped (s : State) (c k : Nat) (word : BitVec 256) (units : List Nat) : State :=
  let x := (s.core c).chose k (s.ctx c k).timed false word units false
  let x := x.setCtx k { s.ctx c k with ptrap := none, ldl := none, engWalk := none, walkBad := none }
  { s with cores := mput s.cores c x, turn := .idle, tried := (c, k) :: s.tried }

/-! ### Moves (R27, R29) -/

/-- The registers and ports after the value of source `x` has gone to destination `d`, written over `r` (R27, R38): S0 and Q0 take
nothing, S registers drop the tag, Q and M take whether the value, or each lane, is not 0. -/
def State.movedTo (s : State) (c k : Nat) (r : Regs) (x d : BitVec 10) : Regs :=
  let n := d.toNat
  let v := s.src c k x
  let w := s.vsrc c k x
  if n < 0x40 then (if n = 0 then r else { r with s := mput r.s (physSV r.base n) ⟨v.val, 0, v.poison⟩ })
  else if n < 0x80 then { r with v := mput r.v (physSV r.base (n - 0x40)) w }
  else if n < 0xC0 then (if n = 0x80 then r else { r with q := setBit r.q (physQ r.base (n - 0x80)) (v.val != 0) })
  else if n < 0x100 then { r with m := mput r.m (n - 0xC0) (ofMask fun l => lane w.bits l != 0) }
  else
    let f := fuOf ((n - 0x100) / 8)
    match portClass f (n % 8) with
    | some true => { r with sport := mput r.sport (8 * f + n % 8) v }
    | some false => { r with vport := mput r.vport (8 * f + n % 8) w }
    | none => r

/-- A move whose source is not poisoned where it is consumed, into Q or M (R281), and has no format mark (R74), but that a latch may go into
a V register with one (log 20). -/
def State.moveClean (s : State) (c k : Nat) (x d : BitVec 10) : Bool :=
  if 0x80 ≤ d.toNat ∧ d.toNat < 0xC0 then (s.src c k x).fine
  else if busOf d then true
  else
    (!(s.vsrc c k x).mark || decide (0x40 ≤ d.toNat ∧ d.toNat < 0x80 ∧ 0x100 ≤ x.toNat)) &&
      (!decide (0xC0 ≤ d.toNat ∧ d.toNat < 0x100) || (s.vsrc c k x).poison == 0)

/-- The moves of a bundle whose guards read true (R31). -/
def State.moves (s : State) (c k : Nat) (word : BitVec 256) : List Mv :=
  (bundleOfWord word).mvs.filter fun m => (s.ctx c k).regs.rdQ m.g.toNat

/-- A legal bundle whose slots are moves into registers and operand ports, all of them clean. -/
def State.onlyMoves (s : State) (c k : Nat) (word : BitVec 256) : Bool :=
  (bundleOfWord word).bad == 0 && bundleCtl word == 0 && beatNop (bundleBeat word) &&
    (bundleOfWord word).mvs.all (fun m => decide (m.dst.toNat < 0x200)) &&
    (s.moves c k word).all fun m => s.moveClean c k m.src m.dst

/-- The registers after the moves of a bundle: every source is read before any is written (R29). -/
def State.allMoved (s : State) (c k : Nat) (word : BitVec 256) : Regs :=
  (s.moves c k word).foldl (fun r m => s.movedTo c k r m.src m.dst) (s.ctx c k).regs

/-- The long immediate of a bundle whose control slot holds limm or limmh (R49). -/
def longOf : Instr → Option Word
  | .limm _ v => some (BitVec.ofInt 64 v.toInt)
  | .limmh _ v => some (BitVec.ofNat 64 (v.toNat * 2 ^ 22))
  | _ => none

/-- The registers after the long immediate has gone to an S or V register (R24, R27). -/
def Regs.longMoved (r : Regs) (v : Word) (m : Mv) : Regs :=
  let n := m.dst.toNat
  if n = 0 then r
  else if n < 0x40 then { r with s := mput r.s (physSV r.base n) ⟨v, 0, false⟩ }
  else { r with v := mput r.v (physSV r.base (n - 0x40)) ⟨ofLanes fun _ => v.extractLsb' 0 32, 0, 0, false, false⟩ }

/-- A context at a bundle that can trap before it acts: as `Issues`, whatever the budget is, and no rerun. -/
abbrev State.Reaches (s : State) (c k : Nat) : Prop :=
  s.turn = .ctx c k ∧ (s.core c).imemBad.contains (s.ctx c k).pc.toNat = false ∧ (s.ctx c k).ptrap = none ∧
    (s.ctx c k).region.isOpen = false ∧ (s.ctx c k).region.stage = 0

/-! ### Checkpoint regions (R212 to R220) -/

/-- A context inside an open region comes to issue: as `Issues`, but for the region and the errors of its registers. -/
abbrev State.Inside (s : State) (c k : Nat) : Prop :=
  s.turn = .ctx c k ∧ s.setCtx c k (s.ctx c k) = s ∧ (s.core c).imemBad.contains (s.ctx c k).pc.toNat = false ∧
    (s.ctx c k).ptrap = none ∧ (s.ctx c k).regs.budget ≠ 0 ∧ (s.ctx c k).region.isOpen = true ∧ s.late c k = false

/-- A context inside an open region comes to issue in one of its first 4,096 cycles (R212), before any error (R217, R282). -/
abbrev State.First (s : State) (c k : Nat) : Prop :=
  s.Inside c k ∧ (s.ctx c k).regBad = [] ∧ (s.ctx c k).region.stage = 0 ∧ s.regionCyc (s.ctx c k) < 4096

/-- The state with a context in no region. -/
def State.unregioned (s : State) (c k : Nat) : State := s.setCtx c k { s.ctx c k with region := Region.zero }

/-- The open region of a context has issued one more bundle (R217). -/
def State.counted (s : State) (c k : Nat) : State :=
  s.setCtx c k { s.ctx c k with region := { (s.ctx c k).region with bundles := (s.ctx c k).region.bundles + 1 } }

/-- The context has used its turn in this clock, and its bundle waits. -/
def State.waits (s : State) (c k : Nat) : State := { s with turn := .idle, tried := (c, k) :: s.tried }

/-- The 16-byte parts that a bundle's accesses touch. -/
def partsTouched (accs : List Acc) : List Nat :=
  accs.flatMap fun a => (List.range ((a.va + a.len - 1) / 16 - a.va / 16 + 1)).map fun i => a.va / 16 + i

/-- The undo log records a part of the carrel, as the context sees it, when it does not hold the part yet (R215). -/
def logPart (s : State) (c k : Nat) (u : List Undo) (p : Nat) : List Undo :=
  if u.any fun x => match x with | .part a _ _ => a == p | .mark _ _ _ => false then u
  else u ++ [.part p (BitVec.ofNat 128 (s.viewN c k 1 (16 * p) 16)) (s.viewPoison c k 1 (16 * p))]

/-- The state in which the undo log of a context's region also holds some parts (R215). -/
def State.logged (s : State) (c k : Nat) (parts : List Nat) : State :=
  s.setCtx c k { s.ctx c k with
    region := { (s.ctx c k).region with undo := parts.foldl (logPart s c k) (s.ctx c k).region.undo } }

/-- The operations of eu, nu, mx and sy that an open region forbids wherever they go, as rows (R214): every trigger of eu and nu, gmode,
and gcyc, which reads the count. -/
def forbiddenRows (s : State) (c k : Nat) (i : Instr) : Option UnitRow :=
  (commands s c k i).or <| (engineOthers s c k i).or <| (reductions s c k i).or <| (readTarget s c k i).or <| (dratrix s c k i).or <|
    (messages s c k i).or <| match i with
      | .gmode _ _ => mxOthers s c k i
      | .gcyc _ _ => syRows s c k i
      | _ => none

/-- The loads, exchanges and folio operations, the vector stores, and the scalar stores to the carrel and the stacks, as rows. -/
def placedRows (s : State) (c k : Nat) (i : Instr) : Option UnitRow :=
  (lscLoads s c k i).or <| (lscStores s c k i).or <| (lvLoads s c k i).or <| (lvStores s c k i).or <| (exchanges s c k i).or <|
    match i with
      | .mark _ _ | .vac _ _ | .setm _ _ => folioOps s c k i
      | _ => none

/-- Operations of the carrel whose undo does not fit the log: a folio exchange and a vac (R215). -/
def neverFits : Instr → Bool
  | .xch _ _ | .xchc _ _ | .vac _ _ => true
  | _ => false

/-- What an open region forbids of the operation of a row, which is the row outside a region (R214, R215). -/
def regionForbids (s : State) (c k : Nat) (i : Instr) (r : UnitRow) : Prop :=
  forbiddenRows (s.unregioned c k) c k i = some r ∨
    (placedRows (s.unregioned c k) c k i = some r ∧ (neverFits i = true ∨ ∃ a ∈ r.accs, lvlOf a.va ≠ some 1)) ∨
      lscGalleryStores (s.unregioned c k) c k i = some r

/-- A push beat. -/
def isPush : Instr → Bool
  | .push _ _ _ => true
  | _ => false

/-- The operations of a region that change nothing of the carrel at their issue: the loads, ldlive, mark and xst, the vector units, mx but for
gmode, and sy but for gcyc (R214). A row that reads outside the carrel is not ok in a region. -/
def regionRows (s : State) (c k : Nat) (i : Instr) : Option UnitRow :=
  (lscLoads s c k i).or <| (lvLoads s c k i).or <| (vaFloat s c k i).or <| (vaInteger s c k i).or <| (vaLanes s c k i).or <|
    (triad s c k i).or <| (vsRows s c k i).or <| (vqRows s c k i).or <| (mxSets s c k i).or <| match i with
      | .ldlive _ _ => lscOthers s c k i
      | .mark _ _ | .xst _ _ => folioOps s c k i
      | .gmode _ _ => none
      | .gcyc _ _ => none
      | _ => (mxOthers s c k i).or (syRows s c k i)

/-- The control operations that a region allows, as rows (R214): branches, loops, the mask stack, yield and the fences. -/
def regionCtl (s : State) (c k : Nat) (i : Instr) : Option CtlRow :=
  (branches s c k i).or <| (loopOps s c k i).or <| (maskOps s c k i).or <| match i with
    | .yield _ | .cfence _ | .sfenceAcq _ | .sfenceRel _ | .sfenceAcqRel _ => waitOps s c k i
    | _ => none

/-- The control operations that an open region forbids, as rows (R214). -/
def forbiddenCtl (s : State) (c k : Nat) : Instr → Option CtlRow
  | .waitEng g e n => waitOps s c k (.waitEng g e n)
  | .waitArr g e => waitOps s c k (.waitArr g e)
  | .waitXcnt g n => waitOps s c k (.waitXcnt g n)
  | .waitWeq g n m => waitOps s c k (.waitWeq g n m)
  | .waitWne g n m => waitOps s c k (.waitWne g n m)
  | .waitc g n => waitOps s c k (.waitc g n)
  | .phaseLaunch g w => systemOps s c k (.phaseLaunch g w)
  | .phaseGroup g w => systemOps s c k (.phaseGroup g w)
  | .tune g => systemOps s c k (.tune g)
  | .sysc g n => systemOps s c k (.sysc g n)
  | .halt g => systemOps s c k (.halt g)
  | .trap g _ => some ⟨g, true, s, .fall⟩
  | _ => none

/-- An operation of a region that may change the carrel (R215, R217): the parts that its undo entries hold, the words that it stores at
its issue, which the signature takes (log 28), and its row. -/
structure LogRow where
  parts : List Nat
  words : List (Nat × BitVec 64)
  row : UnitRow

/-- The operations of a region that change the carrel and log the parts that they change (R215): the stores and cas of lsc, the leaf
exchanges, the vector stores, and a spill burst; a fill burst writes no part and logs none (log 26). -/
def loggedRows (s : State) (c k : Nat) : Instr → Option LogRow
  | .st8 g x => store (lscStores s c k (.st8 g x)) x 1
  | .st16 g x => store (lscStores s c k (.st16 g x)) x 2
  | .st32 g x => store (lscStores s c k (.st32 g x)) x 4
  | .st64 g x => store (lscStores s c k (.st64 g x)) x 8
  | .cas g x => other (lscOthers s c k (.cas g x))
  | .xchl g x => other (exchanges s c k (.xchl g x))
  | .xchlc g x => other (exchanges s c k (.xchlc g x))
  | .vspl g x u => other (lvBursts s c k (.vspl g x u))
  | .vfil g x u => (lvBursts s c k (.vfil g x u)).map fun r => ⟨[], [], r⟩
  | .vst g x u =>
    lanes (lvStores s c k (.vst g x u)) (6 + u.toNat) fun l =>
      (s.pS c k (6 + u.toNat) 0).val + (s.src c k x).val + BitVec.ofNat 64 (4 * l)
  | .vstp g x u =>
    lanes (lvStores s c k (.vstp g x u)) (6 + u.toNat) fun l =>
      (s.pS c k (6 + u.toNat) 0).val + (s.src c k x).val + BitVec.ofNat 64 (4 * l)
  | .vsts g x u =>
    lanes (lvStores s c k (.vsts g x u)) (6 + u.toNat) fun l =>
      (s.pS c k (6 + u.toNat) 0).val + (s.src c k x).val + BitVec.ofNat 64 l * (s.pS c k (6 + u.toNat) 1).val
  | .vsct g x u =>
    lanes (lvStores s c k (.vsct g x u)) (6 + u.toNat) fun l =>
      (s.pS c k (6 + u.toNat) 0).val +
        (lane ((s.ctx c k).regs.rdV ((s.src c k x).val.toNat % 64)).bits l).setWidth 64 * (s.pS c k (6 + u.toNat) 1).val
  | _ => none
where
  /-- An operation that stores nothing at its issue. -/
  other (r : Option UnitRow) : Option LogRow := r.map fun r => ⟨partsTouched r.accs, [], r⟩
  /-- A store of the low `n` bytes of t: one aligned word, with 0 for the bytes that it does not write. -/
  store (r : Option UnitRow) (x : BitVec 10) (n : Nat) : Option LogRow :=
    r.map fun r =>
      let pa := (placed ((s.env c k 0).access ((s.pS c k 5 0).val + (s.pS c k 5 1).val) n n false true)).2.1
      ⟨partsTouched r.accs, [(8 * (pa / 8), BitVec.ofNat 64 ((s.src c k x).val.toNat % 256 ^ n * 256 ^ (pa % 8)))], r⟩
  /-- A vector store. -/
  lanes (r : Option UnitRow) (f : Nat) (addr : Nat → BitVec 64) : Option LogRow :=
    let bs := lvStored s c k f addr
    r.map fun r => ⟨partsOf bs, storeWords (bs.map fun b => (b.pa, b.b)), r⟩

/-- The signature of a context's region is to take the words that a store writes, after the moves of the cycle (R217). -/
def State.signing (s : State) (c k : Nat) (ws : List (Nat × BitVec 64)) : State :=
  s.setCtx c k { s.ctx c k with region := { (s.ctx c k).region with stored := (s.ctx c k).region.stored ++ ws } }

/-- The state in which the undo log of a context's region also holds the mark and blank flag of the carrel folio at `pa` (R215). -/
def State.loggedMark (s : State) (c k pa : Nat) : State :=
  let g := (s.ctx c k).region
  let held := g.undo.any fun x => match x with | .mark f _ _ => f == pa / 16384 | .part _ _ _ => false
  let x := s.mem.level 1 c
  if held then s
  else s.setCtx c k { s.ctx c k with region := { g with undo := g.undo ++ [.mark (pa / 16384) (x.mark pa) (!x.blank pa)] } }

/-- A region violation at the bundle of a context (R214, R220): the bundle commits nothing, and the region is abandoned. -/
def State.violates (s : State) (c k : Nat) (word : BitVec 256) (units : List Nat) : State :=
  raiseTrap (s.trapped c k word units) c k (trapOf 0x16 0 0) (s.ctx c k).pc (s.ctx c k).pc

/-- The byte of a core's carrel that a rollback leaves (R217): the oldest entry of the undo log that holds its part gives it. -/
def undoneByte (s : State) (c : Nat) (undo : List Undo) (a : Nat) : Byte :=
  match undo with
  | [] => s.levelByte 1 c a
  | .part p d _ :: t => if p = a / 16 then d.extractLsb' (8 * (a % 16)) 8 else undoneByte s c t a
  | .mark _ _ _ :: t => undoneByte s c t a

/-- The guard of a step that is one slot of a bundle. -/
def guardOf (i : Instr) : Option (BitVec 4) :=
  match moveOf i, ctlOf i, beatOf i with
  | some (g, _, _), _, _ => some g
  | none, some w, _ => some (w.extractLsb' 22 4)
  | none, none, some w => some (w.extractLsb' 20 4)
  | none, none, none => none

/-- nu.send and nu.recv, which a free context may not hold (R204). -/
def isTransfer : Instr → Bool
  | .send _ _ | .recv _ _ => true
  | _ => false

/-- The state after a bundle of one slot, under a guard that reads false, in which nu.send or nu.recv stands in a free context: the bundle is
illegal, whatever the guard (R31, R204). -/
def State.refuses (s : State) (c k : Nat) (word : BitVec 256) : State :=
  raiseTrap (s.trapped c k word []) c k (trapIllegal 1) (s.ctx c k).pc (s.ctx c k).pc

/-- The next bundle and registers after bundle `pc` when nothing transfers control: loop levels that end there go round or fall
through (R58). -/
def Ctx.fallen (y : Ctx) : Regs × BitVec 13 := fallFrom y.regs y.pc

/-! ### Operations that are due (log 8) -/

/-- What happens when an entry of the agenda is due: the step that takes it, its conditions, and the state after it. -/
structure EventRow where
  i : Instr
  ok : Bool
  post : State

/-- What the step of a due entry does, by its row. -/
abbrev State.Due (s : State) (p : Pending) (r : EventRow) : Prop := s.cause = .due p → r.ok = true → exec r.i s = .next r.post

/-- A context after a value has landed in a latch of it (R30): an error of that latch is gone, and the poison of its value (R282). -/
def Ctx.latched (x : Ctx) (f n : Nat) : Option LVal → Ctx
  | some v => { x with regs := x.regs.land f n v, regBad := mended x.regBad [0x100 + 8 * f + n] }
  | none => x

/-- The state after z and y have landed and flags have been raised, no region being open (R30, R97). -/
def State.latched (s : State) (c k f : Nat) (z y : Option LVal) (fl : BitVec 5) : State :=
  let x := ((s.ctx c k).latched f 0 z).latched f 1 y
  s.setCtx c k { x with regs := { x.regs with flags := x.regs.flags ||| fl } }

/-- A raw scalar that lands. -/
def lands64 (x : BitVec 64) : Option LVal := some (.s ⟨x, 0, false⟩)

/-- A pipe after one of its fields is set (R146, R147), and the old value that lands: 0 base, 1 stride, 2 progress, 3 live count. -/
def pipeField (x : Pipe) (f : Nat) (v : BitVec 64) : Pipe × Option (BitVec 64) :=
  if f = 0 then ({ x with base := v, progress := 0 }, some x.base)
  else if f = 1 then ({ x with stride := v }, some x.stride)
  else if f = 2 then ({ x with progress := v.setWidth 32 }, some (x.progress.setWidth 64))
  else ({ x with live := v.setWidth 32 }, none)

/-- Results of operations that land at their stated cycle, in a context without a region (R30, R69, R72, R86, R133, R142 to R150, R162,
R189, R278, R279). -/
def landings (t : State) (p : Pending) : Option EventRow :=
  let c := p.core
  let k := p.ctx
  let y := t.ctx c k
  let a := (t.core c).arr
  let row := fun (post : State) =>
    some (⟨.resultLanding, decide (k < 4) && !y.region.isOpen && (decide (p.due ≤ p.stated) || !p.waitedFor), post⟩ : EventRow)
  match p.ev with
  | .land f z w fl => row (t.latched c k f z w fl)
  | .write cells pois dig =>
    if dig.isSome then none
    else row (supersede (t.writeAs c k p.lvl c cells pois) p (fun a => cells.any fun x => x.1 == a) fun i => pois.any fun x => x.1 == i)
  | .cas n b x =>
    let u := t.asOf p
    let old := BitVec.ofNat 64 (u.viewN c k 1 n 8)
    let v : LVal := .s ⟨old, 0, u.viewPoison c k 1 n⟩
    let w := supersede (t.writeAs c k 1 c (cellsOf n 8 x.toNat) []) p (fun a => decide (n ≤ a ∧ a < n + 8)) fun _ => false
    row ((if old = b then w else t).latched c k 5 (some v) none 0)
  | .fill reg v => row (t.setCtx c k { y with regs := { y.regs with v := mput y.regs.v reg v }, regBad := mended y.regBad [0x40 + reg] })
  | .recipe i v =>
    let u := t.latched c k 21 (lands64 ((mget y.regs.recipe 0 i).zeroExtend 64)) none 0
    row (u.setCtx c k { u.ctx c k with regs := { (u.ctx c k).regs with recipe := mput (u.ctx c k).regs.recipe i v } })
  | .ctxRead i =>
    let n := i.toNat % 256
    row (t.latched c k 21 (lands64 (t.ctxItem c k n)) (lands64 (if 8 < n ∨ (i.getLsbD 8 ∧ 4 ≤ n) then 1 else 0)) 0)
  | .ctxWrite i x => row (t.setCtx c k (y.writeItem i x))
  | .seed v =>
    let u := t.latched c k 21 (lands64 y.seed) (lands64 0) 0
    row (u.setCtx c k { u.ctx c k with seed := v })
  | .xst => row (t.latched c k 16 (lands64 y.regs.xcnt) (lands64 (BitVec.ofNat 64 (t.xuOwn c k))) 0)
  | .ecnt i => row (t.latched c k 17 (lands64 (if i.getLsbD 3 then y.engineWord else mget y.ecnt 0 (i.toNat % 8))) none 0)
  | .arm i x =>
    let u := t.latched c k 17 (lands64 (mget y.arr Arrival.zero i).word) none 0
    row (u.setCtx c k { u.ctx c k with arr := mput (u.ctx c k).arr i x })
  | .codex i v ok => row (t.setArr c { a with pipes := mput a.pipes i { a.pipe i with codex := v, cv := ok } })
  | .pipe i f v =>
    let x := a.pipe i
    let q := pipeField x f v
    row ((t.setArr c { a with pipes := mput a.pipes i q.1 }).latched c k 20 none (q.2.map fun w => .s ⟨w, 0, false⟩) 0)
  | .anchor v => row ((t.setArr c { a with anchor := v }).latched c k 20 none (lands64 (a.anchor.signExtend 64)) 0)
  | .mxst i => row (t.latched c k 20 none (lands64 (a.item i)) 0)
  | .resid i v =>
    row ((t.setArr c { a with resid := mput a.resid i v }).latched c k 20 none (lands64 (a.item (11 + i))) 0)
  | .voidTaken i => row { t with ports := mput t.ports i { t.port i with vtaken := true, voids := satInc (t.port i).voids } }
  | _ => none

/-- A record of a burst when it is reached (R86, R87): one that may be made is stored or loaded, and the others go on. -/
def spillRows (t : State) (p : Pending) : Option EventRow :=
  match p.ev with
  | .spill f fill reg v tag last pc _ =>
    let r := spillOne (envAt t p.core p.ctx pc) t f fill reg v tag last
    some ⟨.spillRecord, decide (p.ctx < 4) && r.isOk && ((envAt t p.core p.ctx pc).missing [(envAt t p.core p.ctx pc).nextRecord fill]).isNone,
      r.toOption.getD t⟩
  | _ => none

/-- vac and setm complete (R82): the folio is blank, without the context's older stores there that are still in flight (R89) and what its
bank has queued, or carries its mark and is not blank; its bank's idle time starts again (R83), and the context's count goes up. -/
def folioLandings (t : State) (p : Pending) : Option EventRow :=
  let y := t.ctx p.core p.ctx
  let counted := fun (s : State) => s.setCtx p.core p.ctx { y with regs := { y.regs with xcnt := y.regs.xcnt + 1 } }
  let lapse := fun (s : State) => { s with claims := s.claims.filter fun q => s.claimLasts q.1 q.2 }
  let ok := decide (p.ctx < 4) && decide (p.due ≤ p.stated)
  match p.ev with
  | .vac a =>
    let x := t.mem.level a.lvl a.core
    let f := a.pa / 16384
    let x' : Store :=
      { bytes := x.bytes.filter fun q => decide (q.1 < f * 16384 ∨ f * 16384 + 16384 ≤ q.1)
        poison := x.poison.filter fun q => decide (q.1 < f * 16384 / 16 ∨ (f * 16384 + 16384) / 16 ≤ q.1)
        marks := mdel x.marks f, used := mdel x.used f }
    let u := supersede (({ t with mem := t.mem.setLevel a.lvl a.core x' }).dropQueued a.lvl a.pa 16384) { p with lvl := a.lvl }
      (fun n => decide (a.pa ≤ n ∧ n < a.pa + 16384)) fun i => decide (a.pa ≤ 16 * i ∧ 16 * i < a.pa + 16384)
    some ⟨.exchangeCompletion, ok, lapse (counted (u.touchBank false a.lvl a.pa))⟩
  | .setm a m =>
    let x := t.mem.level a.lvl a.core
    let x' := { x with marks := mput x.marks (a.pa / 16384) m, used := mput x.used (a.pa / 16384) true }
    some ⟨.exchangeCompletion, ok, lapse (counted (({ t with mem := t.mem.setLevel a.lvl a.core x' }).touchBank false a.lvl a.pa))⟩
  | _ => none

/-- Beats that land (R153 to R157): the weights of a row, an entry of the sum file, the accumulators of a course; a cleared entry or
accumulator is at its default, zero. -/
def beatLandings (t : State) (p : Pending) : Option EventRow :=
  let a := (t.core p.core).arr
  let ok := decide (4 ≤ p.ctx) || !(t.ctx p.core p.ctx).region.isOpen
  let row := fun (x : Arr) => some (⟨.beatLanding, ok, t.setArr p.core x⟩ : EventRow)
  match p.ev with
  | .pushRow c j b16 xs => if b16 then none else row { a with weights := mput a.weights (256 * c + j) xs }
  | .feedSum e op acc cols => row { a with sums := mput a.sums e (((a.sum e).zip cols).map fun x => x.1.take op acc x.2) }
  | .gfeedSum c b16 anchor xs ys => row (a.gfeed c b16 anchor xs ys)
  | .clrSum e => row { a with sums := mdel a.sums e }
  | .clrAcc c => row { a with accs := a.accs.filter fun q => q.1 / 256 != c }
  | _ => none

/-- Reductions at their slice, where a part that an exchange has swapped now lies (R78), messages and broadcast parts at their context
(R186 to R188, R192). -/
def networkArrivals (t : State) (p : Pending) : Option EventRow :=
  match p.ev with
  | .redux code x a phase l =>
    let cell := code == 6 || (code == 8 && x != 0)
    let at_ := fun b => let q := t.resolve p.core p.ctx 2 0 b; t.levelByte q.1 q.2.1 q.2.2
    let old := Target.read cell (wordAt at_ a.pa (if cell then 64 else 32))
    some ⟨.reductionAtSlice, true, t.writeAs p.core p.ctx 2 0 (Target.cells cell (old.apply code x phase l) a.pa) []⟩
  | .msg c k m l =>
    let y := t.ctx c k
    let ours : Bool := match y.task with | some q => q.launch == l | none => false
    some ⟨.messageArrival, true,
      if ours ∧ y.mailbox.length < 8 then t.setCtx c k { y with mailbox := y.mailbox ++ [{ m with arrived := t.clock }] }
      else t.setCtx c k { y with msgdrop := satInc y.msgdrop }⟩
  | .bcast c k n gen i data poison l =>
    let y := t.ctx c k
    let x := mget y.arr Arrival.zero n
    let ours : Bool := match y.task with | some q => q.launch == l | none => false
    some ⟨.broadcastDelivery, y.region.snap.isNone,
      if ours ∧ x.armed ∧ x.gen = gen ∧ x.recv.toNat < x.exp.toNat ∧ i < 32 * x.count.toNat then
        t.setCtx c k { y with
          regs := y.regs.takePart (physSV x.base (x.first.toNat + i / 32)) i data poison
          arr := mput y.arr n { x with recv := x.recv + 1 } }
      else t.setCtx c k { y with bcdrop := satInc y.bcdrop }⟩
  | .bcastDone n =>
    let y := t.ctx p.core p.ctx
    some ⟨.broadcastDelivery, decide (p.ctx < 4), t.setCtx p.core p.ctx { y with ecnt := mput y.ecnt n (mget y.ecnt 0 n + 1) }⟩
  | _ => none

/-- Engine commands (R223, R230 to R233): a command whose acquire is satisfied enters the shadow set of an idle engine and starts a
clock later; its results are written; then it ends, or makes its release of a flag and a counter. -/
def engineEvents (t : State) (p : Pending) : Option EventRow :=
  match p.ev with
  | .engAcquire c =>
    let e := c.engine
    let first := !(t.agenda.any fun q => match q.ev with
      | .engAcquire d =>
        decide (d.id < c.id) && ((d.core == c.core && d.ctx == c.ctx) || (d.launch == c.launch && d.task == c.task)) && d.engine == e
      | _ => false)
    some ⟨.engineAcquire, acquired t c && first && t.engine e == Engine.zero,
      ({ t with engines := mput (mput t.engines e { Engine.zero with queue := [c] }) e ⟨none, some c, []⟩ }).post
        (t.clock + 1) true 0 0 (.engStart e)⟩
  | .engStart e =>
    match (t.engine e).shadow with
    | some c =>
      let x : Engine := ⟨some { c with snap := some t.swapsDone.mem }, none, []⟩
      let v := engTouch { t with engines := mput t.engines e x } c
      let u := { v with engines := mput v.engines e x }
      some ⟨.engineCommandStart, t.engine e == ⟨none, some c, []⟩,
        u.post (u.clock + 1 + Config.freeNat u.free) true 0 0 (.engEnd e)⟩
    | none => none
  | .engEnd e =>
    match (t.engine e).cur with
    | some c =>
      let r := engineResults (engTouch t c) c
      let u := { r with engines := mput r.engines e { r.engine e with cur := some { c with done := true } } }
      let v := { u with claims := u.claims.filter fun q => u.claimLasts q.1 q.2 }
      if c.releases then
        some ⟨.engineRelease, true, v.post (v.clock + 1 + Config.freeNat v.free) true 0 0 (.engRelease c)⟩
      else
        some ⟨.commandEnd, true,
          (({ v with engines := mput v.engines c.engine { v.engine c.engine with cur := none } }).oneLess c).engAdvance c.engine⟩
    | none => none
  | .engRelease c =>
    let k := c.flags.toNat / 16 % 8
    let u := match t.engPlace c (c.block.toNat / 2 ^ 384 % 2 ^ 64) with
      | some (lvl, pa) => t.writeAs 512 0 lvl c.core (cellsOf pa 8 (c.block.toNat / 2 ^ 448 % 2 ^ 64)) []
      | none => t
    let v := match t.taskCtx c.launch c.task with
      | some (i, j) => u.setCtx i j { t.ctx i j with ecnt := mput (t.ctx i j).ecnt k (mget (t.ctx i j).ecnt 0 k + 1) }
      | none => imageCount u c k
    let w := if c.releases then v else t
    some ⟨.engineRelease, true,
      (({ w with engines := mput w.engines c.engine { w.engine c.engine with cur := none } }).oneLess c).engAdvance c.engine⟩
  | _ => none

/-- Page walks and gallery banks (R83, R210, R291): a present entry enters the core's cache, and another one is a fault of the waiting
bundle; a walk reaches the bank of its table; a gated bank wakes within 1,700 cycles, and then takes the writes that have queued, in
order. -/
def pagesAndBanks (t : State) (p : Pending) : Option EventRow :=
  match p.ev with
  | .walk page =>
    let y := t.ctx p.core p.ctx
    let job := jobOf y.launch
    let t : State := match t.pteAt job page with | some pa => t.agentTouch 2 pa | none => t
    let x := t.core p.core
    let e := t.pte job page
    let others := x.tlb.filter fun q => !(q.job == job && q.page == page && q.pinned.isNone)
    if pteOk e then
      some ⟨.pageWalk, decide (others.length < 512),
        { t.setCore p.core { x with tlb := others ++ [⟨job, page, (e.extractLsb' 21 27).toNat, e.getLsbD 62, e.getLsbD 61, none⟩] }
          with free := t.free + 1 }⟩
    else some ⟨.pageWalk, true, t.setCtx p.core p.ctx { y with walkBad := some page }⟩
  | .bankWake b =>
    let u := { t with banks := mput t.banks b { t.bank b with state := 2, last := t.clock }, free := t.free + 1 }
    some ⟨.bankWake, (t.bank b).state == 1, u.post (t.clock + Config.freeNat t.free % 1701) true 0 0 (.bankAwake b)⟩
  | .bankAwake b =>
    some ⟨.bankAwake, true,
      (t.bank b).queue.foldl (fun s q => s.putCells 2 0 q.1 q.2)
        { t with banks := mput t.banks b ⟨0, t.clock, []⟩ }⟩
  | _ => none

/-- Tasks and launches (R7, R8, R180, R244, R250, R258, R276). -/
def launchEvents (t : State) (p : Pending) : Option EventRow :=
  let start := fun (i : Instr) (l : BitVec 64) (n c k : Nat) =>
    let x := t.launch l
    let y := t.ctx c k
    let q := t.kernelOf x
    let d := q.ctxOf n
    let y' : Ctx :=
      { Ctx.zero with
        regs := { Regs.zero with budget := x.budget, recipe := q.recipes, spill := { Spill.zero with cfol := d.cfol, cbase := d.cbase } }
        pc := d.entry + BitVec.ofNat 13 q.base, seed := x.seed, infl := y.infl, pbuf := y.pbuf, closed := y.closed
        pbufLaunch := if y.occupied then y.pbufLaunch else l
        task := some ⟨l, BitVec.ofNat 20 n, x.timed && d.timed, (t.queue x.queue).prio, x.supervisor⟩
        status := .ready, readyAt := t.clock }
    let x' := { x with started := x.started ++ [(n, c, k)], t0 := if x.started.isEmpty && !x.timed then t.now else x.t0
                       waves := x.waves.filter fun w => w.1 != n }
    some (⟨i, !x.cancelled && t.out.stage != 3 && y.freeFor l && !(t.core c).retired && !(t.core c).oos,
      (({ t with agenda := t.agenda.map (orphan c k) }).setLaunch l x').setCtx c k y'⟩ : EventRow)
  match p.ev with
  | .taskStart l n c k => start .taskStart l n c k
  | .waveStart l n c k => start .waveStart l n c k
  | .overrun l =>
    let x := t.launch l
    match x.boundary with
    | some b =>
      some ⟨.mergeOverrun, true,
        if t.boundaryInTime l b then t
        else (t.setLaunch l { x with ovr := satInc x.ovr, boundary := some { b with overrun := true } }).requestHold 2 none⟩
    | none => none
  | .launchDone l =>
    let w := t.writeColophon l
    let x := t.launch l
    some ⟨.launchComplete, !x.cancelled || x.state != 2,
      if t.ctl.tko ∨ t.ctl.fifo ≠ [] then
        if 256 ≤ t.ctl.fifo.length then
          ((t.setLaunch l { x with state := 3 }).freeLaunch l).post (t.clock + 1) true 0 0 (.launchDone l)
        else
          let v := w.setLaunch l { w.launch l with state := 3 }
          ({ v with ctl := { v.ctl with fifo := v.ctl.fifo ++ [l] } }).freeLaunch l
      else (w.signal l).freeLaunch l⟩
  | .release =>
    match t.ctl.fifo with
    | [] => none
    | l :: rest =>
      let u := ({ t with ctl := { t.ctl with fifo := rest } }).signal l
      some ⟨.heldSignalRelease, !t.ctl.tko && (!rest.isEmpty || u.ctl.live.isSome),
        if rest = [] then
          match u.ctl.live with
          | some n => ({ u with ctl := { u.ctl with live := none } }).setCC n { u.cc n with readyAt := u.clock + 1 }
          | none => u
        else u.post (u.clock + 1) true 0 0 .release⟩
  | .supervisor n =>
    let y := t.ctx p.core p.ctx
    let m := match y.task with | some _ => (t.launch y.launch).supervisor.toNat | none => n
    let box := 0x400C0000 + 128 * (4 * p.core + p.ctx)
    let cells := (List.range 16).flatMap fun i => cellsOf (box + 8 * i) 8 (mget y.record.words 0 i).toNat
    let u := { t with mem := { t.mem with sram := Memory.writeAll t.mem.sram cells } }
    some ⟨.supervisorTrap, true,
      u.setCC m { t.cc m with trapq := ((t.cc m).trapq.filter fun q => q != (p.core, p.ctx)) ++ [(p.core, p.ctx)] }⟩
  | _ => none

/-- A service that a free context waits for (R54, R254), for the launch that asked for it: the context goes on with S1 as after a wait, or
will do so when the trap that has interrupted its wait returns. -/
def serviceEvents (t : State) (p : Pending) : Option EventRow :=
  let done := fun (i : Instr) (ok : Bool) (s : State) (v : BitVec 64) =>
    let y := s.ctx p.core p.ctx
    let w : Wait := .service p.seq
    some (⟨i, ok && decide (p.ctx < 4) && (y.status == .waiting w || y.held == some w),
      s.setCtx p.core p.ctx { y with
        status := if y.status = .waiting w then .ready else y.status, held := if y.held = some w then none else y.held
        readyAt := max y.readyAt (s.clock + 1), regs := y.regs.wrS 1 ⟨v, 0, false⟩, regBad := mended y.regBad [1] }⟩ : EventRow)
  match p.ev with
  | .service n args own =>
    let a0 := args[0]?.getD 0
    let a1 := args[1]?.getD 0
    if n = 1 then
      let x := t.launch a0
      let dep := if a1 = BitVec.allOnes 64 then none else some (a1.extractLsb' 0 32)
      let r := t.enqueue a0 x.queue (t.queue x.queue).prio dep
      if jobOf a0 ≠ jobOf own ∨ x.state ≠ 1 ∨ x.enqueued ∨
          (a1 ≠ BitVec.allOnes 64 ∧ a1.extractLsb' 32 32 ≠ a0.extractLsb' 32 32) then done .syscEnqueue true t 0
      else done .syscEnqueue true r.1 r.2
    else if n = 2 then done .syscStatus true t (if jobOf a0 = jobOf own then t.colo a0 a1 else 0)
    else if n = 3 then
      if 3 < a1.toNat then done .syscCancel true t (BitVec.allOnes 64)
      else if jobOf a0 ≠ jobOf own then done .syscCancel true t 0
      else done .syscCancel true (t.cancel a1.toNat a0).1 (BitVec.ofNat 64 (t.cancel a1.toNat a0).2)
    else if n = 4 then
      if 256 ≤ a0.toNat ∧ a0.toNat ≤ 4095 then done .syscKick true (t.kick a0.toNat) 0 else done .syscKick true t (BitVec.allOnes 64)
    else none
  | _ => none

/-- Holds, reruns, pre-emption, reset and power (R209, R218, R219, R263, R284, R287, R288, R308). -/
def controlEvents (t : State) (p : Pending) : Option EventRow :=
  let c := p.core
  let k := p.ctx
  let y := t.ctx c k
  match p.ev with
  | .holdReq cause d =>
    let h : Hold := ⟨cause, t.clock, t.now, d.map fun d => t.clock + t.gs.hLat + d, 0, cause == 4⟩
    some ⟨.holdRequest, true,
      { t with gs := { t.gs with holds := t.gs.holds ++ [h]
                                 causes := (if t.gs.holds.isEmpty then 0 else t.gs.causes) ||| BitVec.twoPow 8 cause.toNat } }⟩
  | .endNotice cause d =>
    some ⟨.endNotice, true, { t with gs := { t.gs with
      holds := endRequest cause 0 (some y.region.detectClock) t.gs.hLat (fun _ => d) t.gs.holds } }⟩
  | .rerunCompare =>
    let same := y.region.stage == 2 && y.region.bundles == y.region.bundles1 && y.region.sig == y.region.sig1
    if same then
      let u := t.setCtx c k { y with region := Region.zero, lag := if y.timed then y.lag else 0 }
      some ⟨.rerunCompare, true, if y.timed ∧ y.lag = 0 then toCount u c k else u⟩
    else some ⟨.rerunCompare, y.region.stage != 0, retireCore t c⟩
  | .preempt a =>
    match y.task with
    | some q =>
      let u := t.setCtx c k { y with region := Region.zero, lag := 0, ldl := none, engWalk := none }
      some ⟨.preemptHalt, y.region.stage == 0,
        (u.setLaunch q.launch { t.launch q.launch with preempted := true }).post t.clock true c k (.imageSave a)⟩
    | none => none
  | .imageSave a =>
    let ours := t.agenda.any fun q => q.core == c && q.ctx == k && (q.ev.ofBundle || q.ev.sent)
    if a % 2 = 1 then
      match y.task with
      | some q =>
        let z := { y with mailbox := [], msgdrop := y.mailbox.foldl (fun n _ => satInc n) y.msgdrop }
        let cells := (z.imageFields t.now).flatMap fun f => cellsOf (a - 1 + f.1) f.2.1 f.2.2
        let u := t.putCells 2 0 cells ((List.range 2560).map fun i => ((a - 1) / 16 + i, false))
        let v := u.setCtx c k { z with task := none, status := .noTask, held := none, ptrap := none }
        let x := v.launch q.launch
        let v := if x.state = 0 then v else v.setLaunch q.launch { x with ptraps := x.ptraps ++ y.ptrap.toList.map fun d => (q.id, d) }
        some ⟨.imageSave, true, { v with ctl := { v.ctl with saved := v.ctl.saved ++ [(q.launch, q.id, a - 1)] } }⟩
      | none => none
    else if ours then some ⟨.imageSave, true, t.post (t.clock + 1) true c k (.imageSave a)⟩
    else some ⟨.imageSave, true,
      ({ t with free := t.free + 1 }).post (t.clock + Config.freeNat t.free % 201) true c k (.imageSave (a + 1))⟩
  | .coreReset =>
    let u := (t.setCore c { t.core c with oos := true }).dropCommands c
    let v := u.clearCore c
    some ⟨.coreReset, u.xuCount c == 0,
      ({ v with free := v.free + 1 }).post (v.clock + Config.freeNat v.free % 4097) true c 0 .selfTest⟩
  | .selfTest =>
    let x := t.core c
    some ⟨.selfTest, true,
      if x.testFails then t.setCore c { x with retired := true, testFails := false }
      else if x.retired then t else t.setCore c { x with oos := false }⟩
  | .thermalPeriod =>
    some ⟨.emergencyHold, true,
      if t.out.thermal = 2 then (t.requestHold 5 (some 8192)).post (t.clock + 16384) true 0 0 .thermalPeriod else t⟩
  | .takeover n =>
    let y := (t.cc n).interrupts
    let u := (t.setCC n { t.cc n with stopped := true, imemBad := (t.cc n).imemBad.filter fun a => !y.reads a }).say 0x107 []
      [BitVec.ofNat 64 n, (y.pc - BitVec.ofNat 64 y.base) / 4, t.count]
    let v := { u with ctl := { u.ctl with tko := true, failed := BitVec.ofNat 2 n } }
    match v.successor n with
    | some (m, stands) =>
      let w := ({ v with free := v.free + 1, ctl := { v.ctl with noCandidate := false } }).adopt n m
      let x := w.cc m
      let at_ := w.clock + Config.freeNat v.free % 65
      some ⟨.takeover, true,
        if stands then
          w.setCC m { x with standby := false, active := true, stopped := false, machine := true
                             pc := BitVec.ofNat 64 (4 * x.takePc.getD 0), readyAt := at_ }
        else w.setCC m { x.setReg 0x344 (x.reg 0x344 ||| 0x10000) with readyAt := min x.readyAt at_ }⟩
    | none => some ⟨.takeover, true, ({ v with ctl := { v.ctl with noCandidate := true } }).say 0x100 [] [BitVec.ofNat 64 n]⟩
  | .arrival l queue prio dep =>
    let r := t.enqueue l queue (prio.extractLsb' 0 3) dep
    some ⟨.calloteEnqueue, decide (t.out.downTill ≤ t.clock) && (t.launch l).state == 1 && !(t.launch l).enqueued, r.1⟩
  | _ => none

/-! ### Phase boundaries (R177 to R181) -/

/-- Whether an entry writes a byte of the gallery. -/
def PbEntry.writes (e : PbEntry) (a : Nat) : Bool := decide (e.pa ≤ a ∧ a < e.pa + 16) && e.mask.getLsbD (a - e.pa)

/-- The closed entries that a boundary of a launch applies; none of a cancelled launch (R261). -/
def State.closedOf (s : State) (l : BitVec 64) : List PbEntry :=
  if (s.launch l).cancelled then [] else (s.ctxsOf l).flatMap fun q => (s.ctx q.1 q.2).closed

/-- The entry whose byte stands: of the highest task, and of one task the later one (R179). -/
def laterEntry (w : Option PbEntry) (e : PbEntry) : Option PbEntry :=
  match w with
  | some v => if v.task.toNat ≤ e.task.toNat then some e else w
  | none => some e

/-- The byte that a boundary leaves in the gallery (R179): that of the highest task that writes it; in a strict launch a byte that two tasks
write stays. -/
def State.mergedByte (s : State) (l : BitVec 64) (a : Nat) : Byte :=
  let ws := (s.closedOf l).filter fun e => e.writes a
  let stays := (s.launch l).strict && ws.any fun e => ws.any fun o => o.task != e.task
  match if stays then none else ws.foldl laterEntry none with
  | some e => e.data.extractLsb' (8 * (a - e.pa)) 8
  | none => s.levelByte 2 0 a

/-- The parts that a boundary applies entries to, by virtual and physical address. -/
def State.mergedParts (s : State) (l : BitVec 64) : List (Nat × Nat) := ((s.closedOf l).map fun e => (e.va, e.pa)).dedup

/-- What a part of virtual address `va` at `pa` adds to a merge digest (R181). -/
def partDigest (s : State) (va pa : Nat) : Word :=
  let half := fun (i : Nat) => BitVec.ofNat 64 (wordAt (s.levelByte 2 0) (pa + i) 8)
  mix (BitVec.ofNat 64 va) (half 0) + mix (BitVec.ofNat 64 va ^^^ 0x5A5A5A5A5A5A5A5A#64) (half 8)

/-- The merge conflicts of a boundary: a task, a part's address, and the other task (R179). -/
def State.clashes (s : State) (l : BitVec 64) : List (BitVec 20 × Nat × BitVec 20) :=
  if (s.launch l).strict then
    (s.closedOf l).flatMap fun e =>
      ((s.closedOf l).filter fun o => o.pa == e.pa && o.task != e.task && o.mask &&& e.mask != 0).map fun o => (e.task, e.va, o.task)
  else []

/-- Whether a conflict comes before another in a task's record: the lower part address, then the lower other task (R179). -/
def clashBefore (x y : BitVec 20 × Nat × BitVec 20) : Bool :=
  decide (x.2.1 < y.2.1 ∨ (x.2.1 = y.2.1 ∧ x.2.2.toNat ≤ y.2.2.toNat))

/-! ### What comes from outside (R83, R193 to R211, R263, R299 to R309) -/

/-- What the step of an input does, by its row. -/
abbrev State.Takes (s : State) (x : Input) (r : EventRow) : Prop := s.cause = .input x → r.ok = true → exec r.i s = .next r.post

/-- The state that acts on an input: the input has been taken. -/
def State.quietTurn (s : State) : State := { s with turn := .idle, cause := .none }

/-- The group, its links, the banks, the temperature, and the fabric. -/
def packageInputs (t : State) : Input → Option EventRow
  | .peerPacing on => some ⟨.holdRelay, true, { t with gs := { t.gs with paced := on } }⟩
  | .holdRelay r ago peer stop =>
    let h : Hold := ⟨6, t.clock - ago, r.toNat, none, peer + 1, stop⟩
    some ⟨.holdRelay, true,
      { t with gs := { t.gs with holds := t.gs.holds ++ [h], causes := if t.gs.holds.isEmpty then 0 else t.gs.causes } }⟩
  | .endNotice peer d =>
    some ⟨.endNotice, true, { t with gs := { t.gs with holds := endRequest 6 (peer + 1) none t.gs.hLat (fun _ => d) t.gs.holds } }⟩
  | .stacksHoldRequest n =>
    some ⟨.stacksHoldRequest, t.stacksAt64, t.requestHold 3 (some n)⟩
  | .bankPowerGate b =>
    some ⟨.bankPowerGate, t.bankIdle b.toNat, { t with banks := mput t.banks b.toNat { t.bank b.toNat with state := 1 } }⟩
  | .tuneDue o =>
    let v : BitVec 16 := if t.gs.leader then 0 else o
    some ⟨.tuneDue, decide (-32 ≤ v.toInt ∧ v.toInt ≤ 32),
      { t with gs := { t.gs with offset := v, due := if 16 ≤ v.toInt then 1 else if v.toInt ≤ -16 then 3 else 0 } }⟩
  | .groupDesync o =>
    let due : BitVec 2 := if 16 ≤ o.toInt then 1 else if o.toInt ≤ -16 then 3 else 0
    let cores := t.cores.map fun q => (q.1, { q.2 with ctxs := q.2.ctxs.map fun x =>
      (x.1, if x.2.timed then { x.2 with ptrap := some (0x17, o.signExtend 64, 0) } else x.2) })
    some ⟨.groupDesync, !t.gs.leader && !t.gs.desync && decide (33 ≤ o.toInt ∨ o.toInt ≤ -33),
      { t with gs := { t.gs with offset := o, due := due, desync := true }, cores := cores }⟩
  | .frameArrival p f =>
    let q := t.port p.toNat
    let kept := (q.arrived.filter fun g => g.number != f.number).drop (q.arrived.length - 511)
    some ⟨.frameArrival, q.locked && !q.dead,
      { t with ports := mput t.ports p.toNat { q with chk := if frameGood f then q.chk else satInc q.chk, arrived := kept ++ [f] } }⟩
  | .linkLockLoss p =>
    some ⟨.linkLockLoss, true, { t with ports := mput t.ports p.toNat { t.port p.toNat with locked := false, dead := true } }⟩
  | .farLink g p on =>
    let others := t.gs.far.filter fun q => q != (g.toNat, p.toNat)
    some ⟨.linkLockLoss, true, { t with gs := { t.gs with far := others ++ if on then [(g.toNat, p.toNat)] else [] } }⟩
  | .peerPhase l w =>
    let x := t.launch l
    let w' := max w.toNat t.gs.hLat
    let fresh : Boundary :=
      { opened := t.now, window := w', scope := 1, merged := 0, overrun := false, final := false, closed := false, joined := [], mark := 0 }
    let x' : Launch :=
      match x.boundary with
      | some b =>
        if t.now < b.opened + b.window then { x with skew := if t.now = b.opened then x.skew else satInc x.skew }
        else { x with boundary := some fresh, lastScope := 1 }
      | none => { x with boundary := some fresh, lastScope := 1 }
    some ⟨.boundaryComplete, true, if x.state = 2 ∧ x.timed then t.setLaunch l x' else t⟩
  | .packetAtPort p =>
    let key := netKey p.bulk p.router p.port
    let marked := (mget t.slots 0 key).getLsbD (t.now % 64)
    some ⟨.packetAtPort, (outPort p.router.toNat p.port.toNat).isSome && t.carries p &&
        (!marked || t.lastPacket.all fun q => q.1 != key || q.2.1 != t.now),
      if marked then { t with lastPacket := mput t.lastPacket key (t.now, p) } else discard (t.countNet key false) p⟩
  | .clearNet bulk r n => some ⟨.packetAtPort, true, { t with netctr := mdel t.netctr (netKey bulk r n) }⟩
  | .clearPort p =>
    let x := { t.port p.toNat with voids := 0, chk := 0, misplaced := 0, vtaken := false }
    some ⟨.frameArrival, true, { t with ports := mput t.ports p.toNat x }⟩
  | .clearDesync => some ⟨.groupDesync, true, { t with gs := { t.gs with desync := false } }⟩
  | .peerStart l t0 r => some ⟨.taskStart, true, t.peerStart l t0 r⟩
  | .thermalRead tj =>
    let old := t.out.thermal
    let new := if 115 ≤ tj then 3 else if 105 ≤ tj ∨ (old = 2 ∧ 100 ≤ tj) then 2 else if 95 ≤ tj then 1 else 0
    let u := { t with out := { t.out with tj := tj, thermal := new } }
    let v := if new ≠ old ∧ new ≠ 0 then u.say 0x102 [] [BitVec.ofNat 64 new] else u
    some ⟨.thermalRead, old != 3,
      if new = old then u else if new = 3 then v.trip
      else if new = 2 ∧ !(v.agenda.any fun p => p.ev == .thermalPeriod) then v.post v.clock true 0 0 .thermalPeriod else v⟩
  | .ptpMessage n =>
    some ⟨.ptpMessage, decide (t.out.downTill ≤ t.clock), { t with out := { t.out with time := n, timeAt := t.clock } }⟩
  | .fabricImageFetch p bs =>
    some ⟨.fabricImageFetch, t.out.stage == 2 && decide (t.out.downTill ≤ t.clock) && (t.port p.toNat).bound.isNone, t.fetched p.toNat bs⟩
  | .standbyError =>
    match (List.range 4).find? fun m => (t.cc m).standby with
    | some m => some ⟨.standbyError, true, { t with ctl := { t.ctl with oos := t.ctl.oos ||| BitVec.twoPow 4 m } }⟩
    | none => none
  | .fabricEnqueue l =>
    let x := t.launch l
    some ⟨.fabricEnqueue, decide (t.out.downTill ≤ t.clock) && x.state == 1 && !x.enqueued,
      (t.enqueue l x.queue (t.queue x.queue).prio none).1⟩
  | _ => none

/-- The unsigned messages (R298, R299, R301): type, whether it is accepted in recovery mode, and what answers it. -/
def unsignedMessages : Input → Option (Instr × Nat × Bool × Handler × Msg)
  | .statusRead m => some (.statusRead, 0x0001, false, statusReadH, m)
  | .imageChunk m => some (.imageChunk, 0x0002, false, imageChunkH, m)
  | .imageCommit m => some (.imageCommit, 0x0003, false, imageCommitH, m)
  | .attestation m => some (.attestation, 0x0050, false, attestationH, m)
  | .certificateRead m => some (.certificateRead, 0x0051, false, certificateReadH, m)
  | .firmwareChunk m => some (.firmwareChunk, 0x0060, true, firmwareChunkH, m)
  | .firmwareCommit m => some (.firmwareCommit, 0x0061, true, firmwareCommitH, m)
  | _ => none

/-- The signed messages (R299, R301): type and what answers it. -/
def signedMessages : Input → Option (Instr × Nat × Handler × Msg)
  | .launchRequest m => some (.launchRequest, 0x0010, launchRequestH, m)
  | .cancel m => some (.cancel, 0x0011, cancelH, m)
  | .groupFormation m => some (.groupFormation, 0x0020, groupFormationH, m)
  | .groupDissolve m => some (.groupDissolve, 0x0021, groupDissolveH, m)
  | .fuseProgramming m => some (.fuseProgramming, 0x0030, fuseProgrammingH, m)
  | .calloteLine m => some (.calloteLine, 0x0040, calloteLineH, m)
  | _ => none

/-- The reply leaves the package for the message's source: its type has bit 15 set, it repeats key and counter, begins with the result
(R300, R301), and carries the stamp of R302. -/
def State.replies (s : State) (type : Nat) (m : Msg) (a : Answer) : State :=
  let o : Output := ⟨type + 0x8000, m.key, m.counter, leBytes 4 a.1 ++ a.2, [], m.source, s.stamp⟩
  { s with out := { s.out with out := s.out.out ++ [o] } }

/-- A signed message is accepted (R299, R301): its key is used and not revoked, its public key is the one whose hash is fused, its
signature covers header and body, its epoch is the boot count's, and its number is above the last one that the key has had
accepted. -/
def State.accepts (s : State) (type : Nat) (m : Msg) : Bool :=
  let k := m.key.toNat
  let seq := (m.counter.extractLsb' 0 40).toNat
  s.out.stage != 0 && s.out.stage != 1 && decide (s.out.downTill ≤ s.clock) && m.key != 0xFF#8 && decide (m.body.length ≤ 1400) &&
    s.ownerKey k && sha512 m.pub == s.fuseBytes (0x40 + 64 * k) 64 &&
    edVerify m.pub (leBytes 2 type ++ [m.key, 0] ++ leBytes 4 m.body.length ++ leBytes 8 m.counter.toNat ++ m.body) m.sig &&
    m.counter.extractLsb' 40 24 == s.out.epoch &&
    (match s.out.replies.find? fun q => q.1 == k with
      | some _ => decide ((mget s.out.last 0 k).toNat < seq)
      | none => decide (0 < seq))

/-- The inputs that are Callote's commands. -/
def isCommand : Input → Bool
  | .calloteLoad .. | .calloteLaunch _ | .calloteBreak _ | .calloteClear .. | .calloteRun _ | .calloteStep .. | .callotePrint _
  | .callotePlace .. | .calloteCycle | .calloteWatch _ | .calloteGroup | .calloteLat _ | .calloteEnqueue .. | .calloteStart _
  | .calloteInject _ | .injectDrift _ | .injectResidue .. | .injectDelay .. | .injectImem .. => true
  | _ => false

/-- What a Callote command does in an open session (R10 to R12, R68, R194, R208, R222, R245, R299): the places that it names, and nothing
else. -/
def calloteRows (t : State) : Input → Option EventRow
  | .calloteLoad bs a b =>
    match t.loadJob bs with
    | .error e => some ⟨.calloteLoad, t.calloteOpen, t.sayRefusal sayRefused bs e.words⟩
    | .ok r =>
      match r.2.kernels.find? fun k => k.control with
      | none => some ⟨.calloteLoad, t.calloteOpen, r.1.say sayImage r.2.digest [BitVec.ofNat 64 r.2.kernels.length]⟩
      | some k =>
        let u := match a with | some n => r.1.loadControl n.toNat k true | none => r.1
        let v := match b with | some n => u.loadControl n.toNat k false | none => u
        some ⟨.calloteLoad, t.calloteOpen, v.say sayImage r.2.digest [BitVec.ofNat 64 r.2.kernels.length]⟩
  | .calloteLaunch q =>
    match (t.out.images[q.image]?).bind fun im => im.kernels[q.kernel]? with
    | some k =>
      let l := BitVec.ofNat 64 (t.ctl.launches.foldl (fun m q => max m q.1) 0 + 1)
      let r := (t.loadRequest l q k).zlaunch l 3
      some ⟨.calloteLaunch, t.calloteOpen && requestOk q k, r.1.say sayLaunch [] [l, r.2, BitVec.ofNat 64 (r.1.launch l).t0]⟩
    | none => none
  | .calloteBreak b => some ⟨.calloteBreak, t.calloteOpen, { t with out := { t.out with breaks := t.out.breaks ++ [b] } }⟩
  | .calloteClear bundle n =>
    let stays := fun (b : StopPoint) =>
      match b with
      | .bundle _ _ b' _ => !bundle || b'.toNat != n
      | .instr _ i => bundle || i != n
    some ⟨.calloteClear, t.calloteOpen, { t with out := { t.out with breaks := t.out.breaks.filter stays } }⟩
  | .calloteRun till => some ⟨.calloteRun, t.calloteOpen, { t.release with out := { t.release.out with till := till } }⟩
  | .calloteStep c k n =>
    some ⟨.calloteStep, t.calloteOpen, { t.release with out := { t.release.out with
      steps := t.release.out.steps ++ [(c.toNat, k.toNat, (t.ctx c.toNat k.toNat).issued + n)] } }⟩
  | .callotePrint i => some ⟨.callotePrint, t.calloteOpen, t.say sayItem [] (t.shown i)⟩
  | .callotePlace c xs => some ⟨.callotePlace, t.calloteOpen, t.say sayItem [] (xs.flatMap fun a => t.shownSlot c.toNat a.toNat)⟩
  | .calloteCycle => some ⟨.calloteCycle, t.calloteOpen, t.say sayItem [] [t.count, if t.gs.frozen then 1 else 0]⟩
  | .calloteWatch w => some ⟨.calloteWatch, t.calloteOpen, { t with out := { t.out with watches := t.out.watches ++ [w] } }⟩
  | .calloteGroup =>
    some ⟨.calloteGroup, t.calloteOpen, t.say sayItem [] (t.gs.members ++ [BitVec.ofNat 64 t.gs.hLat, if t.gs.leader then 1 else 0] ++
      t.ports.filterMap fun q => if q.2.locked ∧ q.2.ld ≠ 0 then some (q.2.ld.zeroExtend 64) else none)⟩
  | .calloteLat c =>
    some ⟨.calloteLat, t.calloteOpen, t.say sayItem [] ((List.range 64).flatMap fun i =>
      let r := (t.core c.toNat).row i
      [BitVec.ofNat 64 r.lg, BitVec.ofNat 64 r.lx, BitVec.ofNat 64 r.fx])⟩
  | .calloteEnqueue l queue prio dep n =>
    some ⟨.calloteEnqueue, t.calloteOpen, t.post n false 0 0 (.arrival l queue prio dep)⟩
  | .calloteStart n =>
    let x := t.cc n.toNat
    some ⟨.calloteStart, t.calloteOpen && x.active,
      t.setCC n.toNat { x with stopped := false, machine := true, pc := BitVec.ofNat 64 (4 * x.startPc.getD 0), readyAt := t.clock + 1 }⟩
  | .calloteInject k => some ⟨.calloteInject, t.calloteOpen, injected t k⟩
  | .injectResidue c k b =>
    some ⟨.injectResidue, t.calloteOpen, { t with out := { t.out with residue := t.out.residue ++ [(c.toNat, k.toNat, b.toNat)] } }⟩
  | .injectDelay c k b n =>
    some ⟨.injectDelay, t.calloteOpen,
      if (t.ctx c.toNat k.toNat).timed then t.say sayRefused [] []
      else { t with out := { t.out with delays := t.out.delays ++ [⟨c.toNat, k.toNat, b.toNat, n, none⟩] } }⟩
  | .injectDrift up =>
    let o := t.gs.offset + if up then 16 else -16
    let v : BitVec 16 := if t.gs.leader then 0 else o
    some ⟨.injectDrift, t.calloteOpen && decide (-32 ≤ v.toInt ∧ v.toInt ≤ 32),
      { t with gs := { t.gs with offset := v, due := if 16 ≤ v.toInt then 1 else if v.toInt ≤ -16 then 3 else 0 } }⟩
  | .injectImem n i =>
    some ⟨.injectImem, t.calloteOpen, t.setCC n.toNat { t.cc n.toNat with imemBad := (t.cc n.toNat).imemBad ++ [(t.cc n.toNat).base + 4 * i] }⟩
  | _ => none
where
  /-- The state with an injected error. -/
  injected (t : State) : Injection → State
    | .tagMiss c x b ex => { t with out := { t.out with tagMiss := t.out.tagMiss ++ [(c.toNat, x.toNat, b.toNat, ex)] } }
    | .register c x src =>
      let y := t.ctx c.toNat x.toNat
      t.setCtx c.toNat x.toNat { y with regBad := y.regBad ++ [(envAt t c.toNat x.toNat 0).errorCode src] }
    | .bundleFetch c b => t.setCore c.toNat { t.core c.toNat with imemBad := (t.core c.toNat).imemBad ++ [b.toNat] }
    | .memoryPart c a =>
      match lvlOf a.toNat with
      | none => t
      | some l =>
        let x := t.mem.level l c.toNat
        { t with mem := t.mem.setLevel l c.toNat { x with poison := mput x.poison (a.toNat / 16) true } }
    | .selfTestFail c => t.setCore c.toNat { t.core c.toNat with testFails := true }

/-! ### Steps that come by themselves -/

/-- The freeze and the resumption of the count, the slots of Dratrix frames, the boot, and the reboot of CC3 (R201, R202, R209, R259, R293,
R309). -/
def ownSteps (s : State) : List EventRow :=
  let t := s.quietTurn
  let n := t.frameNumber
  let d := Config.freeNat t.free
  let u := t.drainByClock
  [⟨.countFreeze, true,
      { u with gs := { u.gs with frozen := true, frozenAt := t.clock, holdCount := satInc t.gs.holdCount } }⟩,
    ⟨.holdResume, t.cores.all fun q => q.2.ctxs.all fun y => y.2.lag == 0 || !y.2.timed,
      { t with gs := { t.gs with frozen := false, holds := [] } }⟩,
    ⟨.frameSlot, true,
      t.slotPorts.foldl (fun u p =>
        let q := u.port p
        let f := if u.gs.desync then voidFrame n else (q.sentAt n).getD (voidFrame n)
        let kept := q.sent.filter fun g => g.number != n && decide ((n - g.number).toNat ≤ q.ld.toNat / 16 + 1)
        { u with ports := mput u.ports p { q with sent := kept ++ [f] } }) t⟩,
    ⟨.cc3Reboot, true,
      let till := t.clock + 1 + d % 1700001
      let u := ({ t with free := t.free + 1, out := { t.out with downTill := till } }).reloadCC3 till
      ({ u with out := { u.out with session := false, breaks := [], watches := [], passed := [], steps := [], till := none
                                    delays := u.out.delays.filter fun y => y.launch.isSome } }).endStops⟩]

/-- BOOT (R293, R294): the boot count goes up; with no firmware that verifies the package waits in recovery mode, and with firmware its
control cores run, its cores are tested, its links train, and it is a group of its own at count 0. -/
def bootRow (t : State) : EventRow :=
  let u := t.countBoot.prepare.firmware
  ⟨.boot, t.out.stage == 0,
    match u.2 with
    | none => { u.1 with out := { u.1.out with stage := 1 } }
    | some x =>
      let v := ((u.1.loadFirmware x.1 x.2).bootTest).trainLinks.ownGroup
      ({ v with count := 0, out := { v.out with stage := 2, fwver := x.1.version } }).say 0x101 [] []⟩

/-! ### Control cores (R241 to R243, R251, R263 to R270) -/

/-- The control core at hand executes an instruction: `n` is it, and it is about to do so. -/
abbrev State.Runs32 (s : State) (n : Nat) : Prop := s.turn = .cc n

/-- The state after an instruction of control core `n` that gives rd a value: the pc moves past the word, the instruction counts, and
the next one comes at a free time (R321). `u` is the state in which it has acted. -/
def State.retires (s u : State) (n : Nat) (rd : BitVec 5) (v : BitVec 64) : State :=
  let x := u.cc n
  let x := { (if rd = 0 then x else { x with x := mput x.x rd.toNat v }) with pc := (s.cc n).pc + 4 }
  let x := { x with csr := mput x.csr 0xB02 (mget x.csr 0 0xB02 + 1), readyAt := u.clock + 1 + Config.freeNat u.free, done := x.done + 1 }
  { u.setCC n x with free := u.free + 1, turn := .idle }

/-- An Xzgl instruction's effect and rd (R264): `a` is rs1 and `b` is rs2. -/
structure XzglRow where
  rd : BitVec 5
  ok : Bool
  post : State × BitVec 64

/-- Integer register `r` of control core `n`. -/
def State.xreg (s : State) (n : Nat) (r : BitVec 5) : BitVec 64 := if r = 0 then 0 else mget (s.cc n).x 0 r.toNat

/-- Whether `n` bytes at an aligned address are SRAM of the control complex (R262). -/
def sramOk (a : BitVec 64) (n align : Nat) : Bool :=
  decide (a.toNat % align = 0) && decide (0x40000000 ≤ a.toNat) && decide (a.toNat + n ≤ 0x40100000)

/-- The Xzgl instructions of control core `n`. -/
def xzglRows (s : State) (n : Nat) : Instr → Option XzglRow
  | .zlaunch r d => some ⟨d, true, s.zlaunch (s.xreg n r) n⟩
  | .zkick t r =>
    let i := (s.xreg n r).toNat % 4096
    some ⟨0, true,
      if (s.xreg n t).getLsbD 0 then
        ({ s with ctl := if s.ctl.kick.getLsbD i then { s.ctl with rekick := setBit s.ctl.rekick i true }
                         else { s.ctl with kick := setBit s.ctl.kick i true } }, 0)
      else
        ({ s with ctl := if s.ctl.rekick.getLsbD i then { s.ctl with rekick := setBit s.ctl.rekick i false }
                         else { s.ctl with kick := setBit s.ctl.kick i false } }, 0)⟩
  | .zscan r d =>
    some ⟨d, true, s, match (List.range 4096).find? fun i => decide ((s.xreg n r).toNat ≤ i) && s.ctl.kick.getLsbD i with
      | some i => BitVec.ofNat 64 i
      | none => BitVec.allOnes 64⟩
  | .zcancel t r d =>
    let q := s.cancel (s.xreg n t).toNat (s.xreg n r)
    some ⟨d, true, if (s.xreg n t).toNat ≤ 3 then (q.1, BitVec.ofNat 64 q.2) else (s, BitVec.allOnes 64)⟩
  | .zpreemptHalt t r d => some ⟨d, true, s.zpreempt (s.xreg n r) (s.xreg n t)⟩
  | .zpreemptResume t r d => some ⟨d, true, s.zpreempt (s.xreg n r) (s.xreg n t)⟩
  | .zreset r d =>
    let c := (s.xreg n r).toNat % 512
    some ⟨d, true,
      if (s.xreg n r).toNat ≥ 512 then (s, BitVec.allOnes 64)
      else if !s.serving c then (s, 1)
      else (({ s with free := s.free + 1 }).post (s.clock + Config.freeNat s.free % 65) true c 0 .coreReset, 0)⟩
  | .zjrnl r d =>
    let a := s.xreg n r
    some ⟨d, sramOk a 24 8, s.journal ((List.range 24).map fun i => Memory.read s.mem.sram (a.toNat + i))⟩
  | .zcolo t r d => some ⟨d, true, s, s.colo (s.xreg n r) (s.xreg n t)⟩
  | .zbudget t r d => some ⟨d, true, s.zbudget (s.xreg n r) (s.xreg n t)⟩
  | .zfence t r d =>
    let q := s.xreg n r
    let a := s.xreg n t
    some ⟨d, decide (256 ≤ q.toNat) || sramOk a 64 64,
      if 256 ≤ q.toNat then (s, BitVec.allOnes 64)
      else (s.ccPut (cellsOfBytes a.toNat (s.queue (q.extractLsb' 0 8)).hash), (s.queue (q.extractLsb' 0 8)).chained.zeroExtend 64)⟩
  | _ => none

/-- The fields of a CSR instruction word. -/
def csrNumber (w : BitVec 32) : Nat := (w.extractLsb' 20 12).toNat

/-- The value that a CSR instruction word writes over `old` (Zicsr, log 7). -/
def csrNew (s : State) (n : Nat) (w : BitVec 32) (old : BitVec 64) : BitVec 64 :=
  let r := w.extractLsb' 15 5
  let v := if 4 ≤ (w.extractLsb' 12 3).toNat then r.zeroExtend 64 else s.xreg n r
  match (w.extractLsb' 12 3).toNat % 4 with
  | 1 => v
  | 2 => old ||| v
  | _ => old &&& ~~~v

/-! ### Accesses that fail their checks (R65, R71, R290) -/

/-- A load or store of lsc: guard, source, operation, bytes, and whether it stores. -/
def lscAccess : Instr → Option (BitVec 4 × BitVec 10 × Nat × Nat × Bool)
  | .ld8 g x => some (g, x, 0, 1, false)
  | .ld8u g x => some (g, x, 1, 1, false)
  | .ld16 g x => some (g, x, 2, 2, false)
  | .ld16u g x => some (g, x, 3, 2, false)
  | .ld32 g x => some (g, x, 4, 4, false)
  | .ld32u g x => some (g, x, 5, 4, false)
  | .ld64 g x => some (g, x, 6, 8, false)
  | .st8 g x => some (g, x, 7, 1, true)
  | .st16 g x => some (g, x, 8, 2, true)
  | .st32 g x => some (g, x, 9, 4, true)
  | .st64 g x => some (g, x, 10, 8, true)
  | _ => none

/-- The fault of an access to a level at address `a`, by its page and its folio: of a timed context without a pinned entry for the page
reason 3, of a free one whose page is absent reason 4, without the right reason 5 (R67, R290), and in the gallery the claim of another core
(R183). The carrel has none. -/
def placeFault (s : State) (c k lvl : Nat) (a : Word) (st : Bool) : Option Trap :=
  let y := s.ctx c k
  if lvl = 1 then none
  else
    match (s.core c).tlb.find? fun e =>
        e.job == jobOf y.launch && e.page == a.toNat / 0x200000 && (!y.timed || e.pinned.isSome) with
    | none => some (trapXlat a (if y.timed then 3 else 4))
    | some e =>
      if (if st then e.wr else e.rd) = false then some (trapXlat a 5)
      else
        match s.claims.find? fun q => lvl == 2 && q.1 == (e.frame * 0x200000 + a.toNat % 0x200000) / 16384 && q.2.core != c with
        | some q => some (trapClaim a q.2.core)
        | none => none

/-- The fault of a load or store of `n` bytes at `a`, from the address itself: a byte outside the three levels reason 0, a misaligned address
reason 1 (R65, R71), then its place. -/
def lscFault (s : State) (c k : Nat) (a : Word) (n : Nat) (st : Bool) : Option Trap :=
  match lvlOf a.toNat, lvlOf (a.toNat + n - 1) with
  | some lvl, some _ => if a.toNat % n ≠ 0 then some (trapXlat a 1) else placeFault s c k lvl a st
  | _, _ => some (trapXlat a 0)

/-- A vector load or store: its guard and source, its unit and operation, the address of each lane, the active lanes, whether it stores, and
whether its operands are clean (R74, R75). -/
structure LaneAccess where
  g : BitVec 4
  x : BitVec 10
  unit : Nat
  code : Nat
  addr : Nat → Word
  act : Mask
  st : Bool
  ok : Bool

/-- The vector loads and stores by the addresses of their lanes (R75). -/
def lvAccess (s : State) (c k : Nat) : Instr → Option LaneAccess
  | .vld g x u => some ⟨g, x, f u, 0, contiguous u x, allLanes, false, load u x⟩
  | .vldp g x u => some ⟨g, x, f u, 1, contiguous u x, allLanes, false, load u x && (s.pS c k (f u) 1).fine⟩
  | .vlds g x u => some ⟨g, x, f u, 2, apart u x, allLanes, false, load u x && (s.pS c k (f u) 1).fine⟩
  | .vldb g x u =>
    some ⟨g, x, f u, 3, fun l => (s.pS c k (f u) 0).val + (s.src c k x).val + BitVec.ofNat 64 (4 * (l % 16)), allLanes, false, load u x⟩
  | .vgat g x u => some ⟨g, x, f u, 4, named u x, top, false, load u x && (s.pS c k (f u) 1).fine && (index x).any top⟩
  | .vst g x u => some ⟨g, x, f u, 5, contiguous u x, top, true, store u x⟩
  | .vstp g x u => some ⟨g, x, f u, 6, contiguous u x, top, true, store u x && (s.pS c k (f u) 1).fine⟩
  | .vsts g x u => some ⟨g, x, f u, 7, apart u x, top, true, store u x && (s.pS c k (f u) 1).fine⟩
  | .vsct g x u => some ⟨g, x, f u, 8, named u x, top, true, store u x && (s.pS c k (f u) 1).fine && (index x).any top⟩
  | _ => none
where
  /-- The unit. -/
  f (u : BitVec 1) : Nat := 6 + u.toNat
  /-- The mask of active lanes. -/
  top : Mask := (s.ctx c k).regs.top
  /-- Lanes side by side from a + t. -/
  contiguous (u : BitVec 1) (x : BitVec 10) (l : Nat) : Word := (s.pS c k (f u) 0).val + (s.src c k x).val + BitVec.ofNat 64 (4 * l)
  /-- Lanes b apart from a + t. -/
  apart (u : BitVec 1) (x : BitVec 10) (l : Nat) : Word :=
    (s.pS c k (f u) 0).val + (s.src c k x).val + BitVec.ofNat 64 l * (s.pS c k (f u) 1).val
  /-- The index register. -/
  index (x : BitVec 10) : VVal := (s.ctx c k).regs.rdV ((s.src c k x).val.toNat % 64)
  /-- Lanes at a plus an index times b. -/
  named (u : BitVec 1) (x : BitVec 10) (l : Nat) : Word :=
    (s.pS c k (f u) 0).val + (lane (index x).bits l).setWidth 64 * (s.pS c k (f u) 1).val
  /-- The operands of every load. -/
  load (u : BitVec 1) (x : BitVec 10) : Bool :=
    (s.pS c k (f u) 0).fine && (s.pS c k (f u) 2).fine && (s.src c k x).fine && !tagReserved ((s.pS c k (f u) 2).val.setWidth 6)
  /-- The operands of every store. -/
  store (u : BitVec 1) (x : BitVec 10) : Bool := (s.pS c k (f u) 0).fine && !(s.pV c k (f u) 3).mark && (s.src c k x).fine

/-- The fault of a vector access from its lane addresses (R65, R74, R75, R290): the first active lane outside the three levels or misaligned
gives reason 0 or 1; lanes in more than one level give reason 2 at the first active lane; then the first lane whose place has a fault. -/
def laneFault (s : State) (c k : Nat) (r : LaneAccess) : Option Trap :=
  let ls := (List.range 128).filter fun l => r.act.getLsbD l
  let lvl := fun l => lvlOf (r.addr l).toNat
  let here := ls.head?.bind lvl
  (ls.findSome? fun l =>
    if lvl l = none then some (trapXlat (r.addr l) 0) else if (r.addr l).toNat % 4 ≠ 0 then some (trapXlat (r.addr l) 1) else none).or <|
  (if ls.any fun l => lvl l != here then ls.head?.map fun l => trapXlat (r.addr l) 2 else none).or <|
  ls.findSome? fun l => placeFault s c k (here.getD 1) (r.addr l) r.st

/-- The lane operations of va0 and va1 whose operands a and t must be f32 or raw (R126): guard, source, unit and operation. -/
def floatPairs : Instr → Option (BitVec 4 × BitVec 10 × BitVec 1 × Nat)
  | .fadd g x u => some (g, x, u, 0)
  | .fsub g x u => some (g, x, u, 1)
  | .fmul g x u => some (g, x, u, 2)
  | .fmin g x u => some (g, x, u, 4)
  | .fmax g x u => some (g, x, u, 5)
  | _ => none

/-! ### Instructions of the control cores (R241 to R243, R255, R262, R276, R292) -/

/-- Words of RV64IMAC that give rd a value or store (log 7): rd, the state in which the instruction has acted, and rd's value. -/
def rvRow (s : State) (n : Nat) (w : BitVec 32) : Option (BitVec 5 × State × BitVec 64) :=
  let f3 := (w.extractLsb' 12 3).toNat
  let f7 := (w.extractLsb' 25 7).toNat
  let rd := w.extractLsb' 7 5
  let a := s.xreg n (w.extractLsb' 15 5)
  let b := s.xreg n (w.extractLsb' 20 5)
  let op := (w.extractLsb' 0 7).toNat
  if op = 0x37 then some (rd, s, immU w)
  else if op = 0x17 then some (rd, s, (s.cc n).pc + immU w)
  else if op = 0x33 then (rvOp f7 f3 a b).map fun v => (rd, s, v)
  else if op = 0x3B then (rvOpW f7 f3 a b).map fun v => (rd, s, v)
  else if op = 0x13 then (rvImm w a).map fun v => (rd, s, v)
  else if op = 0x1B then (rvImmW w a).map fun v => (rd, s, v)
  else if op = 0x03 then
    let ea := a + immI w
    if f3 ≠ 7 ∧ ea.toNat % 2 ^ (f3 % 4) = 0 ∧ (ccLevel ea.toNat).isSome then
      (rvLoaded f3 (s.ccRead ea.toNat (2 ^ (f3 % 4)))).map fun v => (rd, s.ccTouch ea.toNat, v)
    else none
  else if op = 0x23 then
    let ea := a + immS w
    if f3 < 4 ∧ ea.toNat % 2 ^ f3 = 0 ∧ (ccLevel ea.toNat).isSome then some (0, s.ccStore n ea.toNat (2 ^ f3) b, 0) else none
  else none

/-- The word that a control core executes, and its bytes: a word whose two low bits are 3 is a word of 32 bits, any other a compressed one,
which stands for a word (log 7). -/
def rvWord (w : BitVec 32) : Option (BitVec 32 × BitVec 64) :=
  if w.extractLsb' 0 2 = 3#2 then some (w, 4) else (rvc (w.extractLsb' 0 16)).map fun v => (v, 2)

/-- The state after an instruction that gives rd a value and goes to `pc`. -/
def State.retiresTo (u : State) (n : Nat) (rd : BitVec 5) (v pc : BitVec 64) : State :=
  let x := u.cc n
  let x := { (if rd = 0 then x else { x with x := mput x.x rd.toNat v }) with pc := pc }
  let x := { x with csr := mput x.csr 0xB02 (mget x.csr 0 0xB02 + 1), readyAt := u.clock + 1 + Config.freeNat u.free, done := x.done + 1 }
  { u.setCC n x with free := u.free + 1, turn := .idle }

/-- The reservation of control core `n` becomes `a` (log 7). -/
def State.reserves (s : State) (n : Nat) (a : Option Nat) : State := s.setCC n { s.cc n with reserved := a }

/-- lr, sc and the atomics of `b` bytes at an aligned address where memory is (R241, log 7): rd's state and value. -/
def rvAtomicRow (s : State) (n : Nat) (w : BitVec 32) : Option (State × BitVec 64) :=
  let f3 := (w.extractLsb' 12 3).toNat
  let f5 := (w.extractLsb' 27 5).toNat
  let b := if f3 = 2 then 4 else 8
  let a := (s.xreg n (w.extractLsb' 15 5)).toNat
  let v := s.xreg n (w.extractLsb' 20 5)
  let ext := fun (v : BitVec 64) => if f3 = 2 then (v.setWidth 32).signExtend 64 else v
  let old := ext (BitVec.ofNat 64 (s.ccRead a b))
  if (f3 = 2 ∨ f3 = 3) ∧ a % b = 0 ∧ (ccLevel a).isSome then
    if f5 = 2 then (if w.extractLsb' 20 5 = 0 then some ((s.ccTouch a).reserves n (some (a / 8)), old) else none)
    else if f5 = 3 then
      (if (s.cc n).reserved = some (a / 8) then some ((s.ccStore n a b v).reserves n none, 0) else some (s.reserves n none, 1))
    else (rvAmo f5 old (ext v)).map fun x => ((s.ccTouch a).ccStore n a b x, old)
  else none

/-- The CSRs that a CSR instruction word of CONTROL_CORE_INSTRUCTION reads, and whether it may write them: those that a control core holds by
itself, and those that it only reads (R242, log 7). -/
def rvCsrOk (w : BitVec 32) : Bool :=
  let a := csrNumber w
  let own := decide (a ∈ [0x300, 0x301, 0x304, 0x305, 0x340, 0x341, 0x342, 0x343, 0x344, 0xB00, 0xB02])
  if csrWrites w then own else a != 0xFC3

/-- Words of RV64IMAC that transfer control, act on memory atomically, return, or act on CSRs, in a word of `len` bytes (log 7): rd, the
state in which the instruction has acted, rd's value, and the next pc. -/
def rvFlow (s : State) (n : Nat) (w : BitVec 32) (len : BitVec 64) : Option (BitVec 5 × State × BitVec 64 × BitVec 64) :=
  let f3 := (w.extractLsb' 12 3).toNat
  let rd := w.extractLsb' 7 5
  let a := s.xreg n (w.extractLsb' 15 5)
  let b := s.xreg n (w.extractLsb' 20 5)
  let pc := (s.cc n).pc
  let op := (w.extractLsb' 0 7).toNat
  if op = 0x6F then some (rd, s, pc + len, pc + immJ w)
  else if op = 0x67 then (if f3 = 0 then some (rd, s, pc + len, (a + immI w) &&& ~~~1#64) else none)
  else if op = 0x63 then (rvBranch f3 a b).map fun t => (0, s, 0, if t then pc + immB w else pc + len)
  else if op = 0x2F then (rvAtomicRow s n w).map fun q => (rd, q.1, q.2, pc + len)
  else if op = 0x0F then (if f3 = 0 then some (0, s, 0, pc + len) else none)
  else if w = 0x10500073#32 then some (0, s, 0, pc + len)
  else if w = 0x30200073#32 then
    (if (s.cc n).machine then some (0, s.setCC n (s.cc n).mret, 0, mget (s.cc n).csr 0 0x341) else none)
  else if op = 0x73 ∧ f3 ≠ 0 ∧ f3 ≠ 4 ∧ len = 4 ∧ rvCsrOk w ∧ (s.cc n).machine = true then
    (s.csrRead n (s.cc n) (csrNumber w)).map fun old =>
      (rd, if csrWrites w then s.setCC n ((s.cc n).csrWrite s.clock (csrNumber w) (csrNew s n w old)) else s, old, pc + 4)
  else (rvRow s n w).map fun q => (q.1, q.2.1, q.2.2, pc + len)

/-- The exceptions of CONTROL_CORE_INSTRUCTION (R241, log 7), as cause and value: a fetch outside the instruction memory, a compressed word
that stands for none, ecall and ebreak, a misaligned or failing load, store or atomic, an opcode that no instruction has, mret below machine
mode, and a CSR below machine mode, without meaning, or read-only and written. -/
def rvExcept (s : State) (n : Nat) (w : BitVec 32) : Option (Nat × BitVec 64) :=
  if !(s.cc n).fetches then some (1, (s.cc n).pc)
  else
    match rvWord w with
    | none => some (2, w.zeroExtend 64)
    | some (v, _) =>
      let f3 := (v.extractLsb' 12 3).toNat
      let op := (v.extractLsb' 0 7).toNat
      let load := s.xreg n (v.extractLsb' 15 5) + immI v
      let store := s.xreg n (v.extractLsb' 15 5) + immS v
      let atom := s.xreg n (v.extractLsb' 15 5)
      let b := if f3 = 2 then 4 else 8
      let illegal : Option (Nat × BitVec 64) := some (2, v.zeroExtend 64)
      if v = 0x00000073#32 then some (if (s.cc n).machine then 11 else 8, 0)
      else if v = 0x00100073#32 then some (3, (s.cc n).pc)
      else if v = 0x30200073#32 then (if (s.cc n).machine then none else illegal)
      else if op ∉ [0x37, 0x17, 0x6F, 0x67, 0x63, 0x03, 0x23, 0x13, 0x1B, 0x33, 0x3B, 0x2F, 0x0F, 0x73] then illegal
      else if op = 0x03 ∧ f3 ≠ 7 then failing load (2 ^ (f3 % 4)) 4
      else if op = 0x23 ∧ f3 < 4 then failing store (2 ^ f3) 6
      else if op = 0x2F ∧ (f3 = 2 ∨ f3 = 3) then
        (if v.extractLsb' 27 5 = 2 then (if v.extractLsb' 20 5 = 0 then failing atom b 4 else illegal)
         else if v.extractLsb' 27 5 = 3 ∨ (rvAmo (v.extractLsb' 27 5).toNat 0 0).isSome then failing atom b 6 else illegal)
      else if op = 0x73 ∧ f3 ≠ 0 ∧ f3 ≠ 4 then
        (if (s.cc n).machine = false ∨ (csrWrites v = true ∧ 0xC00 ≤ csrNumber v) ∨ (s.csrRead n (s.cc n) (csrNumber v)).isNone then illegal
         else none)
      else none
where
  /-- An access of `b` bytes that is misaligned, or that reaches no memory, by its cause. -/
  failing (a : BitVec 64) (b cause : Nat) : Option (Nat × BitVec 64) :=
    if a.toNat % b ≠ 0 then some (cause, a) else if (ccLevel a.toNat).isNone then some (cause + 1, a) else none

/-- The CSR instructions that are steps of their own, but for zxinv: the CSR's number, whether the word writes it, rd's value, and the
state in which the instruction has acted (R242, R244, R255, R262, R276). -/
def csrRow (s : State) (n : Nat) : Instr → Option (BitVec 32 × Nat × Bool × BitVec 64 × State)
  | .zctkoLive w =>
    let v := csrNew s n w s.ctl.tkoWord
    let u := { s with ctl := { s.ctl with oos := s.ctl.oos ||| v.setWidth 4 } }
    let on := { u with ctl := { u.ctl with tko := false } }
    some (w, 0x7C0, true, s.ctl.tkoWord,
      if v.getLsbD 4 ∧ s.ctl.tko then
        (if s.ctl.fifo = [] then on
         else ({ on with ctl := { on.ctl with live := some n } }).post (s.clock + 1) true 0 0 .release)
      else u)
  | .zjheadWrite w =>
    let v := csrNew s n w s.ctl.zjhead
    some (w, 0x7C1, true, s.ctl.zjhead,
      if s.ctl.zjhead.toNat ≤ v.toNat ∧ v.toNat ≤ s.ctl.zjtail.toNat + 1 then { s with ctl := { s.ctl with zjhead := v } } else s)
  | .registerWrite w =>
    let v := (csrNew s n w (s.ctl.zplim.setWidth 64)).toNat % 512
    some (w, 0x7C2, true, s.ctl.zplim.setWidth 64, { s with ctl := { s.ctl with zplim := BitVec.ofNat 9 (min v 340) } })
  | .ztrapqRead w =>
    let x := s.cc n
    some (w, 0xFC3, false, x.trapqWord, s.setCC n { x with trapq := x.trapq.drop 1 })
  | _ => none

/-- The job and the page that a write of zxinv names (R292). -/
def State.withdrawn (s : State) (n : Nat) (w : BitVec 32) : BitVec 16 × Nat :=
  let v := csrNew s n w 0
  (v.extractLsb' 48 16, v.toNat / 2 ^ 21 % 2 ^ 27)

/-- The caches without their unpinned entries of a page (R292). -/
def State.uncached (s : State) (job : BitVec 16) (page : Nat) : State :=
  { s with cores := s.cores.map fun q =>
      (q.1, { q.2 with tlb := q.2.tlb.filter fun e => !(e.job == job && e.page == page && e.pinned.isNone) }) }

/-- Whether a write of zxinv still waits for the engine commands that read the page, within 255 clocks of its begin (R292, log 22). -/
def State.withdrawing (s : State) (n : Nat) (w : BitVec 32) : Bool :=
  s.engineReads (s.withdrawn n w).1 (s.withdrawn n w).2 && decide (s.clock < (s.cc n).inv.getD s.clock + 255)

/-- The state after a write of zxinv (R292): every core's unpinned entry of the page is gone, rd is 0, and the write retires within 256
clocks, once the accesses in flight that the page's entries translated have been performed. -/
def State.invalidates (s : State) (n : Nat) (w : BitVec 32) : State :=
  let lvl := (lvlOf ((s.withdrawn n w).2 * 0x200000)).getD 0
  let x := s.cc n
  let t0 := x.inv.getD s.clock
  let x := { x with csr := mput x.csr 0xB02 (mget x.csr 0 0xB02 + 1), pc := x.pc + 4, inv := none
                    x := if w.extractLsb' 7 5 = 0 then x.x else mput x.x (w.extractLsb' 7 5).toNat 0, done := x.done + 1
                    readyAt := max (s.clock + 1) (min (s.agenda.foldl (fun m p => if p.writesLevel lvl then max m p.due else m)
                      (s.clock + 1 + Config.freeNat s.free % 256)) (t0 + 256)) }
  { ((s.uncached (s.withdrawn n w).1 (s.withdrawn n w).2).hastens lvl t0 false).setCC n x with free := s.free + 1, turn := .idle }

/-- The state after a try of a write of zxinv that still waits for engine commands: the entries are gone, what is in flight goes on without
delay, and the write is tried again in the next clock (R292, log 22). -/
def State.withdraws (s : State) (n : Nat) (w : BitVec 32) : State :=
  let lvl := (lvlOf ((s.withdrawn n w).2 * 0x200000)).getD 0
  let t0 := (s.cc n).inv.getD s.clock
  { ((s.uncached (s.withdrawn n w).1 (s.withdrawn n w).2).hastens lvl t0 true).setCC n
      { s.cc n with readyAt := s.clock + 1, inv := some t0 } with turn := .idle }

end Sys2Proof.Machine
end

