-- ==== Sys2Proof/Certificates/Slice0/Obligations.lean ====
section
/-! DEFINITION. What is claimed of the machine: each statement is a Prop, and its docstring names the rules of spec/ that it says. Tables
of rows stand in Sys2Proof/Safety.lean. -/

open Sys2Proof Sys2Proof.Machine

/-! ### Decoding -/

/-- Decoding the words of a well-formed step gives the step back, with every operand at every value (R21 to R27, R34 to R36, R45, R151,
R264). The halt and the resume of ZPREEMPT have one word (R267, R286; log 16). -/
def Obligations.DecodeGivesBackEncoded : Prop :=
  ∀ (i : Instr) (n w : Nat), WellFormed i = true → encode i = some (n, w) →
    w < 2 ^ n ∧ ((n = 256 ∧ decodeBundle (BitVec.ofNat 256 w) = i) ∨
      (n = 32 ∧ decodeRv (BitVec.ofNat 32 w) = match i with | .zpreemptResume t r d => .zpreemptHalt t r d | _ => i))

/-- Words that spec/ writes out decode to the steps that it names: moves (02_bundles, 04_levels_exchange), control words
(03_scalar_control_loops, 07_vector_ops, 10_cores_phases), the bundle of 02_bundles, and a word of the control cores. -/
def Obligations.DecodeReadsWords : Prop :=
  decodeTableWord 24 0x000D80 = some (.move 0 3 0x180) ∧ decodeTableWord 24 0x001F01 = some (.xchc 0 7) ∧
    decodeTableWord 24 0x000A60 = some (.vld 0 2 0) ∧ decodeTableWord 24 0x081E20 = some (.add 0 0x207 1) ∧
    decodeTableWord 24 0x311680 = some (.fadd 3 0x045 0) ∧ decodeTableWord 32 0x04800008 = some (.br 2 8) ∧
    decodeTableWord 32 0x18004000 = some (.limm 0 0x4000) ∧ decodeTableWord 32 0x24008065 = some (.loopi 0 0 2 6 2 1) ∧
    decodeTableWord 32 0x3400000A = none ∧ decodeTableWord 32 0x48000100 = some (.phaseLaunch 0 256) ∧
    decodeTableWord 32 0x50000000 = some (.cfence 0) ∧ decodeTableWord 32 0x0002850B = some (.zlaunch 5 10) ∧ decodeTableWord 32 0x0062850B = none ∧
    decodeBundle 0x01800400000000000000_0004E0493116800111400000_00081E200C0110000A60 =
      .bundleIssue 0x01800400000000000000_0004E0493116800111400000_00081E200C0110000A60

/-! ### Steps -/

/-- A STEP RUNS THE DECODED INSTRUCTION. When no input, operation or boundary is due and the count neither freezes nor resumes, the context
that comes to issue runs the step that the bundle at its bundle index decodes to; with no such context, a control core that is ready
takes a pending interrupt and runs the step that the word at its pc decodes to (R29, R162, R241; the order is log 8's). -/
def Obligations.StepRunsDecoded : Prop :=
  ∀ (s : State), s.inputs = [] → s.firstDue = none → s.boundaryNow = none → s.freezes = false → s.resumes = false →
    (∀ c k, s.issuer = some (c, k) →
      step s = exec (decodeBundle ((s.core c).word k)) { s with turn := .ctx c k, cause := .none }) ∧
    (∀ n, s.issuer = none → ((List.range 4).find? fun m => s.ccReady m (s.cc m)) = some n → (s.cc n).interrupts.fetchBad = false →
      step s = exec (decodeRv (s.cc n).interrupts.word) (({ s with turn := .cc n, cause := .none }).setCC n (s.cc n).interrupts))

/-- What comes first runs first (log 8): an input, then an operation that is due, then a boundary that is complete, then the freeze and the
resumption of the count. -/
def Obligations.StepTakesWhatIsDue : Prop :=
  ∀ (s : State),
    (∀ x rest, s.inputs = x :: rest → step s = exec x.step { s.watchedInput x with inputs := rest, turn := .event, cause := .input x }) ∧
    (s.inputs = [] →
      (∀ p, s.firstDue = some p → step s = exec (s.stepOf p.ev) { s.watched p with turn := .event, cause := .due p }) ∧
      (s.firstDue = none →
        (∀ l, s.boundaryNow = some l → step s = exec .boundaryComplete (s.event (.boundary l))) ∧
        (s.boundaryNow = none → s.freezes = true →
          step s = exec .countFreeze { s.watchHold true with turn := .event, cause := .none }) ∧
        (s.boundaryNow = none → s.freezes = false → s.resumes = true →
          step s = exec .holdResume { s.watchHold false with turn := .event, cause := .none })))

/-- When nothing is left to do in a clock the clock passes: a frozen count stands, and a running one goes on by one, but for a tune (R195,
R200, R209). -/
def Obligations.ClockPasses : Prop :=
  ∀ (s : State), s.pick = none →
    ∃ t, step s = .next t ∧ t.clock = s.clock + 1 ∧ (s.gs.frozen = true → t.count = s.count) ∧
      (s.gs.frozen = false → s.gs.tune = 0 → t.count = s.count + 1)

/-! ### Reset and invariants -/

/-- Right after reset: the count is 0, no context runs a task, loop levels, frame floor and rotation base are 0 (R56), the spill state is 0
(R84), zplim is 340 and zpmeas 0 (R255), no kick bit is set (R242). The model's choices here: every part of every level is blank and reads
zero, with mark 0xFFFFFFFF, since no rule gives the contents of the levels at reset (log 5); registers without a reset value of the spec hold 0
(log 6). -/
def Obligations.ResetState : Prop :=
  State.reset.count = 0 ∧
    (∀ c k, (State.reset.ctx c k).task = none ∧ (State.reset.ctx c k).regs = Regs.zero ∧ (State.reset.ctx c k).region.isOpen = false) ∧
    (∀ k, Regs.zero.loop k = ⟨0, 0, false, false, 0, 0, 0⟩) ∧
    Regs.zero.floor = 0 ∧ Regs.zero.depth = 0 ∧ Regs.zero.base = 0 ∧ Regs.zero.spill = Spill.zero ∧
    (∀ lvl c a, State.reset.levelByte lvl c a = 0 ∧ State.reset.levelPoison lvl c a = false ∧
      (State.reset.mem.level lvl c).mark a = 0xFFFFFFFF#32 ∧ (State.reset.mem.level lvl c).blank a = true) ∧
    State.reset.ctl.zplim = 340 ∧ State.reset.ctl.zpmeas = 0 ∧ State.reset.ctl.kick = 0 ∧ State.reset.claims = []

/-- The memories have their canonical form after reset. -/
def Obligations.ResetMemoryCanonical : Prop := State.reset.memOk = true

/-- EVERY STEP KEEPS THE CANONICAL FORM of every memory of the package: the three levels, the SRAM and instruction memories of the control
complex, flash and fuses. -/
def Obligations.MemoryStaysCanonical : Prop := ∀ (s t : State), s.memOk = true → step s = .next t → t.memOk = true

/-- The hardwired registers and the rotation of names (R38): S0 reads zero and Q0 true, writes to them are discarded, every other register
reads what was written to it and leaves the others alone, and S(32 + i), V(32 + i) and Q(8 + i) name S(32 + (i + B) mod 32),
V(32 + (i + B) mod 32) and Q(8 + (i + B) mod 8). -/
def Obligations.RegisterNames : Prop :=
  (∀ (r : Regs) (v : SVal), (r.rdS 0).val = 0 ∧ r.wrS 0 v = r) ∧ (∀ (r : Regs) (b : Bool), r.rdQ 0 = true ∧ r.wrQ 0 b = r) ∧
    (∀ (r : Regs) (n m : Nat) (v : SVal), n ≠ 0 → n < 64 → m < 64 →
      (r.wrS n v).rdS m = if m = n then ⟨v.val, 0, v.poison⟩ else r.rdS m) ∧
    (∀ (r : Regs) (n m : Nat) (v : VVal), n < 64 → m < 64 → (r.wrV n v).rdV m = if m = n then v else r.rdV m) ∧
    (∀ (r : Regs) (n m : Nat) (b : Bool), n ≠ 0 → n < 16 → m < 16 → (r.wrQ n b).rdQ m = if m = n then b else r.rdQ m) ∧
    (∀ (b : BitVec 5) (i : Nat), i < 32 → physSV b (32 + i) = 32 + (i + b.toNat) % 32 ∧ physSV b i = i) ∧
    (∀ (b : BitVec 5) (i : Nat), i < 8 → physQ b (8 + i) = 8 + (i + b.toNat) % 8 ∧ physQ b i = i)

/-! ### Guards, moves and whole bundles -/

/-- A slot whose guard reads false does nothing (R31): its bundle commits, is charged to the budget, and changes nothing else. A false guard
never changes what is legal: nu.send and nu.recv of a free context make the bundle illegal under one too (R204; read from the two rules
together, log 57). -/
def Obligations.FalseGuardDoesNothing : Prop :=
  ∀ (s : State) (c k : Nat) (i : Instr) (b : BitVec 256) (g : BitVec 4), WellFormed i = true → bundleOf i = some b →
    guardOf i = some g → s.Issues c k → (s.ctx c k).regs.rdQ g.toNat = false →
    exec i s = .next (if isTransfer i && !(s.ctx c k).timed then s.refuses c k b else s.issued s c k b [] false .fall)

/-- MOVE (R24, R25, R27, R29): a move into a register or operand port writes it and nothing else; and what each source puts on a scalar and
on a vector bus, the group cycle, loop counts, lane index and latches among them, and the poison that an error has given a Q or M register (R282), which is what every operation reads. That the lanes of an M
register carry tag raw is the model's choice (log 48). -/
def Obligations.MoveWritesItsDestination : Prop :=
  (∀ (s : State) (c k : Nat) (g : BitVec 4) (x d : BitVec 10), s.Issues c k → (s.ctx c k).regs.rdQ g.toNat = true →
    moveFits x d = true → (dstClass d).isSome = true → s.moveClean c k x d = true →
    exec (.move g x d) s =
      .next (s.issued (s.setRegs c k (s.movedTo c k (s.ctx c k).regs x d)) c k (moveBundle g x d) [] false .fall)) ∧
  (∀ (s : State) (c k : Nat) (x : BitVec 10) (v : SVal), s.scalarBus c k x = some v → s.src c k x = v) ∧
  (∀ (s : State) (c k : Nat) (x : BitVec 10) (v : VVal), s.vectorBus c k x = some v → s.vsrc c k x = v)

/-- BUNDLE_ISSUE (R29): a bundle of moves reads every source before it writes any destination, and writes only the destinations of the
moves whose guards read true. In a bundle with limm or limmh the long immediate is the one that its control slot gives (R24, R49). -/
def Obligations.BundleMovesTogether : Prop :=
  (∀ (s : State) (c k : Nat) (w : BitVec 256), s.Issues c k → bundleCk w = false → s.onlyMoves c k w = true →
    exec (.bundleIssue w) s = .next (s.issued (s.setRegs c k (s.allMoved c k w)) c k w [] false .fall)) ∧
  (∀ (s : State) (c k : Nat) (w : BitVec 256) (i : Instr) (v : Word), s.Issues c k → bundleCk w = false → (bundleOfWord w).bad = 0 →
    longOf i = some v → ctlOf i = some (bundleCtl w) → beatNop (bundleBeat w) = true →
    ((bundleOfWord w).mvs.all fun m => m.src == 0x300#10 && decide (m.dst.toNat < 0x80)) = true →
    exec (.bundleIssue w) s =
      .next (s.issued (s.setRegs c k ((s.moves c k w).foldl (fun r m => r.longMoved v m) (s.ctx c k).regs)) c k w [] false .fall))

/-- CHECKPOINT (R212, R213): when nothing of its context is in flight, a CK bundle of moves issues and opens a region there: its snapshot
holds the registers, the array and the blank flags of the carrel as they stood before the bundle. Every move is made, into whichever
register or port, and the registers are then those that a loop level ending there leaves (R58). Memory and the other cores stay. -/
def Obligations.CheckpointOpensRegion : Prop :=
  ∀ (s : State) (c k : Nat) (w : BitVec 256), s.Issues c k → bundleCk w = true → s.onlyMoves c k w = true →
    ((s.moves c k w).all fun m => m.src != 0x302#10) = true → s.busy c k = false →
    ((s.ctx c k).timed = true → s.beatsInFlight c = false) →
    let y := ({ s.ctx c k with regs := s.allMoved c k w }).stepped (s.ctx c k).pc .fall
    ∃ t, exec (.checkpoint w) s = .next t ∧ (t.ctx c k).region.isOpen = true ∧ (t.ctx c k).region.start = (s.ctx c k).pc ∧
      (t.ctx c k).region.startPos = s.pos (s.ctx c k) ∧ (t.ctx c k).region.undo = [] ∧
      (t.ctx c k).region.snap = some ((s.ctx c k).regs, (s.core c).arr, (s.mem.level 1 c).used) ∧
      (t.ctx c k).regs = y.regs ∧ (t.ctx c k).pc = y.pc ∧ (t.ctx c k).regs.budget = (s.ctx c k).regs.budget - 1 ∧
      (t.ctx c k).regs.s = (s.allMoved c k w).s ∧ (t.ctx c k).regs.v = (s.allMoved c k w).v ∧
      (t.ctx c k).regs.m = (s.allMoved c k w).m ∧ (t.ctx c k).regs.sport = (s.allMoved c k w).sport ∧
      (t.ctx c k).regs.vport = (s.allMoved c k w).vport ∧ t.mem = s.mem ∧ t.claims = s.claims ∧
      ∀ c', c' ≠ c → t.core c' = s.core c'

/-- How a region ends (R212, R216 to R219, R282). A ckend inside an open region waits while a beat of its context is in flight, and else
issues. Outside a rerun the region is then over, with its undo log and snapshot. At the end of rerun 1 its bundle count and signature are kept,
the signature with what the region still has in flight (log 28); the snapshot is written back, and rerun 2 issues the CK bundle again after the
restore; a timed context's end notice goes out then, with the lag that the rerun adds as its D. At the end of rerun 2 the reruns are compared
in the following clock. A register error that a move meets inside a region rolls the region back: registers and array registers are the
snapshot's, every logged byte of the carrel is the old one, what the context has in flight is gone, and the CK bundle issues again after the
restore, in rerun 1; a timed context requests a hold. -/
def Obligations.RegionEnds : Prop :=
  (∀ (s : State) (c k : Nat) (g : BitVec 4), s.Inside c k → (s.ctx c k).regBad = [] → (s.ctx c k).regs.rdQ g.toNat = true →
    (s.regionCyc (s.ctx c k) < 4096 ∨ (s.ctx c k).region.stage ≠ 0 ∧ (s.ctx c k).region.bundles = 0) →
    let g0 := (s.ctx c k).region
    let word := bundleOfCtl ((ctlOf (.ckend g)).getD 0)
    let sig := (s.issued (s.counted c k) c k word [] false .fall).sealed c k
    (s.ownBeats c k = true → exec (.ckend g) s = .next (s.waits c k)) ∧
    (s.ownBeats c k = false → g0.stage = 0 →
      exec (.ckend g) s = .next (s.issued (s.unregioned c k) c k word [] false .fall)) ∧
    (s.ownBeats c k = false → g0.stage = 1 → ∀ regs arr used, g0.snap = some (regs, arr, used) →
      let start := s.clock + 1 + max 4 ((g0.undo.length + 7) / 8)
      let lag := (g0.detectPos - g0.startPos) + (start - g0.detectClock)
      ∃ t, exec (.ckend g) s = .next t ∧ (t.ctx c k).regs = regs ∧ (t.ctx c k).pc = g0.start ∧ (t.ctx c k).status = .ready ∧
        (t.ctx c k).readyAt = start ∧ (t.ctx c k).lag = (s.ctx c k).lag + lag ∧ (t.ctx c k).region.isOpen = true ∧ (t.ctx c k).region.stage = 2 ∧
        (t.ctx c k).region.bundles1 = g0.bundles + 1 ∧ (t.ctx c k).region.sig1 = sig ∧ (t.ctx c k).region.undo = [] ∧
        (t.ctx c k).region.snap = g0.snap ∧
        ((s.ctx c k).timed = true → ∃ p ∈ t.agenda, p.core = c ∧ p.ctx = k ∧ p.onClock = true ∧ p.due = start ∧
          p.ev = .endNotice 0 lag)) ∧
    (s.ownBeats c k = false → g0.stage = 2 →
      ∃ t, exec (.ckend g) s = .next t ∧ (t.ctx c k).region.isOpen = false ∧ (t.ctx c k).region.bundles = g0.bundles + 1 ∧
        (t.ctx c k).region.sig = sig ∧ t.mem = s.mem ∧
        ∃ p ∈ t.agenda, p.core = c ∧ p.ctx = k ∧ p.onClock = true ∧ p.due = s.clock + 1 ∧ p.ev = .rerunCompare)) ∧
  (∀ (s : State) (c k : Nat) (g : BitVec 4) (x d : BitVec 10) (regs : Regs) (arr : Arr) (used : SMap Bool), s.Inside c k → k < 4 →
    (s.ctx c k).region.stage = 0 → s.regionCyc (s.ctx c k) < 4096 → (s.ctx c k).regs.rdQ g.toNat = true → moveFits x d = true →
    (dstClass d).isSome = true → (s.ctx c k).regBad.contains ((s.env c k 0).physical x) = true →
    (s.ctx c k).region.snap = some (regs, arr, used) → s.memOk = true →
    let g0 := (s.ctx c k).region
    ∃ t, exec (.move g x d) s = .next t ∧ (t.ctx c k).regs = regs ∧ (t.ctx c k).pc = g0.start ∧ (t.ctx c k).status = .ready ∧
      (t.ctx c k).readyAt = s.clock + max 4 ((g0.undo.length + 7) / 8) ∧ (t.ctx c k).region.isOpen = true ∧
      (t.ctx c k).region.stage = 1 ∧ (t.ctx c k).region.undo = [] ∧ (t.ctx c k).region.sig = 0 ∧ (t.ctx c k).region.bundles = 0 ∧
      (t.ctx c k).region.detectClock = s.clock ∧ (t.ctx c k).region.snap = g0.snap ∧
      (t.core c).arr.pipes = arr.pipes ∧ (t.core c).arr.anchor = arr.anchor ∧ (t.core c).arr.resid = arr.resid ∧
      (t.core c).arr.grad = arr.grad ∧
      (∀ a, t.levelByte 1 c a = undoneByte s c g0.undo a) ∧ t.mem.gallery = s.mem.gallery ∧ t.mem.hbm = s.mem.hbm ∧
      (∀ c' a, c' ≠ c → t.levelByte 1 c' a = s.levelByte 1 c' a) ∧
      (∀ p ∈ t.agenda, p.core = c → p.ctx = k → p.ev.ofBundle = false) ∧
      ((s.ctx c k).timed = true →
        t.gs.holds = s.gs.holds ++ [{ cause := 0, clock := s.clock, count := s.now, doneAt := none, peer := 0, stop := false }]) ∧
      ((s.ctx c k).timed = false → t.gs = s.gs) ∧ t.claims = s.claims ∧
      ∀ c' k', (c', k') ≠ (c, k) → k' < 4 → t.ctx c' k' = s.ctx c' k')

/-- A bundle inside an open region, in its first 4,096 cycles and before any error (R212, R214, R215). What the region forbids is a region
violation: the context takes that trap at the bundle, which commits nothing, and the region is over. So is a bundle in a later cycle, and a
CK bundle. An operation that the region allows runs as outside one, and the region counts its bundle: the operations of the scalar units; the
scalar and vector loads, ldlive and mark of the carrel, xst, and the operations of the vector units, mx and sy but for gmode and gcyc, as their
tables have them; the beats that read nothing but the carrel; branches, loops, the mask stack, yield and the fences; and an operation that
changes the carrel with the old parts in the undo log, when they fit the 512 that it holds; if they do not fit, that is a region violation
too. A setm of a carrel folio logs one entry, its mark and blank flag, and a vector store the parts of its lanes; a fill writes no part of the
carrel and logs none. A store to the gallery is a violation. nu.send and nu.recv of a free context are illegal under a false guard too (R31,
R204; log 57). The model's choices here: gcyc is a read of the count, and a fill logs nothing (log 26); the words that the signature takes of a
store (log 28). -/
def Obligations.InsideRegion : Prop :=
  (∀ (s : State) (c k : Nat) (i : Instr) (r : UnitRow), regionForbids s c k i r → s.First c k →
    (s.ctx c k).regs.rdQ r.g.toNat = true → srcOk (busOf (trigCode r.unit r.code)) r.x = true → r.x ≠ 0x300#10 →
    (s.env c k 0).Clear r.accs → (r.unit = 20 → s.regionBeside c k = false) → s.bursting c k [r.unit] = false → r.ok = true →
    exec i s = .next (s.violates c k (moveBundle r.g r.x (trigCode r.unit r.code)) [r.unit])) ∧
  (∀ (s : State) (c k : Nat) (i : Instr) (r : BeatRow), beats (s.unregioned c k) c k i = some r →
    (isPush i = true ∨ ∃ a ∈ r.accs, lvlOf a.va ≠ some 1) → s.First c k → (s.ctx c k).regs.rdQ r.g.toNat = true →
    s.regionBeside c k = false → (s.env c k 0).Clear r.accs → r.ok = true →
    exec i s = .next (s.violates c k (bundleOfBeat ((beatOf i).getD 0)) [])) ∧
  (∀ (s : State) (c k : Nat) (i : Instr) (r : CtlRow), forbiddenCtl (s.unregioned c k) c k i = some r → s.First c k →
    (s.ctx c k).regs.rdQ r.g.toNat = true → ctlFieldsOk i = true → r.ok = true →
    exec i s = .next (s.violates c k (bundleOfCtl ((ctlOf i).getD 0)) [])) ∧
  (∀ (s : State) (c k : Nat) (g : BitVec 4) (d : BitVec 10), s.First c k → (s.ctx c k).regs.rdQ g.toNat = true →
    moveFits 0x302 d = true → (dstClass d).isSome = true →
    exec (.move g 0x302 d) s = .next (s.violates c k (moveBundle g 0x302 d) [])) ∧
  (∀ (s : State) (c k : Nat) (w : BitVec 256), s.First c k → bundleCk w = true → s.onlyMoves c k w = true →
    exec (.checkpoint w) s = .next (s.violates c k w [])) ∧
  (∀ (s : State) (c k : Nat) (i : Instr) (b : BitVec 256) (g : BitVec 4), WellFormed i = true → bundleOf i = some b →
    guardOf i = some g → s.Inside c k → (s.ctx c k).regs.rdQ g.toNat = false → (s.ctx c k).region.stage = 0 →
    (isTransfer i && !(s.ctx c k).timed) = false →
    (4096 ≤ s.regionCyc (s.ctx c k) → exec i s = .next (s.violates c k b [])) ∧
    (s.regionCyc (s.ctx c k) < 4096 → (s.ctx c k).regBad = [] →
      exec i s = .next (s.issued (s.counted c k) c k b [] false .fall))) ∧
  (∀ (s : State) (c k : Nat) (i : Instr) (b : BitVec 256) (g : BitVec 4), WellFormed i = true → bundleOf i = some b →
    guardOf i = some g → s.Inside c k → (s.ctx c k).regs.rdQ g.toNat = false → (s.ctx c k).region.stage = 0 → isTransfer i = true →
    (s.ctx c k).timed = false → exec i s = .next (s.refuses c k b)) ∧
  (∀ (s : State) (c k : Nat) (i : Instr) (r : ScalarRow), scalarA i = some r ∨ scalarB i = some r ∨ scalarM i = some r → s.First c k →
    (s.ctx c k).regs.rdQ r.g.toNat = true → srcOk true r.x = true → r.x ≠ 0x300#10 → r.x ≠ 0x302#10 →
    (r.a = true → (s.pS c k r.unit 0).Clean) → (r.b = true → (s.pS c k r.unit 1).Clean) → (s.src c k r.x).Clean →
    exec i s = .next (s.issued
      ((s.lands c k r.unit r.lat (some (raw (r.z (s.pS c k r.unit 0).val (s.pS c k r.unit 1).val (s.src c k r.x).val))) none 0).counted c k)
      c k (moveBundle r.g r.x (trigCode r.unit r.code)) [r.unit] false .fall)) ∧
  (∀ (s : State) (c k : Nat) (i : Instr) (r : UnitRow), regionRows s c k i = some r → s.First c k →
    (s.ctx c k).regs.rdQ r.g.toNat = true → srcOk (busOf (trigCode r.unit r.code)) r.x = true → r.x ≠ 0x300#10 → r.x ≠ 0x302#10 →
    (s.env c k 0).Clear r.accs → (r.unit = 20 → s.regionBeside c k = false) → s.bursting c k [r.unit] = false → r.ok = true →
    exec i s = .next (s.issued (r.post.counted c k) c k (moveBundle r.g r.x (trigCode r.unit r.code)) [r.unit] (holdsCarrel r.accs) .fall)) ∧
  (∀ (s : State) (c k : Nat) (i : Instr) (r : BeatRow), beats s c k i = some r → isPush i = false → s.First c k →
    (s.ctx c k).regs.rdQ r.g.toNat = true → s.regionBeside c k = false → (s.env c k 0).Clear r.accs → r.ok = true →
    exec i s = .next (s.issued (r.post.counted c k) c k (bundleOfBeat ((beatOf i).getD 0)) [] (holdsCarrel r.accs) .fall)) ∧
  (∀ (s : State) (c k : Nat) (i : Instr) (r : CtlRow), regionCtl s c k i = some r → s.First c k → (s.ctx c k).regs.rdQ r.g.toNat = true →
    ctlFieldsOk i = true → r.ok = true →
    exec i s = .next (s.issued (r.post.counted c k) c k (bundleOfCtl ((ctlOf i).getD 0)) [] false r.flow)) ∧
  (∀ (s : State) (c k : Nat) (i : Instr) (p q : LogRow), loggedRows s c k i = some p →
    let u := s.logged c k p.parts
    let r := q.row
    loggedRows u c k i = some q → (∀ a ∈ r.accs, lvlOf a.va = some 1) → k < 4 → s.First c k →
    (s.ctx c k).regs.rdQ r.g.toNat = true → srcOk (busOf (trigCode r.unit r.code)) r.x = true → r.x ≠ 0x300#10 → r.x ≠ 0x302#10 →
    (s.env c k 0).Clear r.accs → s.bursting c k [r.unit] = false → r.ok = true →
    let word := moveBundle r.g r.x (trigCode r.unit r.code)
    ((u.ctx c k).region.undo.length ≤ 512 →
      exec i s = .next (s.issued ((r.post.signing c k q.words).counted c k) c k word [r.unit] (holdsCarrel r.accs) .fall)) ∧
    (512 < (u.ctx c k).region.undo.length → exec i s = .next (s.violates c k word [r.unit]))) ∧
  (∀ (s : State) (c k : Nat) (g : BitVec 4) (x : BitVec 10) (r : UnitRow),
    let a := folioOps.at_ s c k x
    let u := s.loggedMark c k a.pa
    folioOps u c k (.setm g x) = some r → a.lvl = 1 → s.First c k → (s.ctx c k).regs.rdQ g.toNat = true → srcOk true x = true →
    x ≠ 0x300#10 → x ≠ 0x302#10 → (s.env c k 0).Clear r.accs → r.ok = true →
    let word := moveBundle g x (trigCode 16 6)
    ((u.ctx c k).region.undo.length ≤ 512 →
      exec (.setm g x) s = .next (s.issued (r.post.counted c k) c k word [16] (holdsCarrel r.accs) .fall)) ∧
    (512 < (u.ctx c k).region.undo.length → exec (.setm g x) s = .next (s.violates c k word [16])))

/-! ### Traps -/

/-- An illegal bundle traps with the mask of its offending slots and commits nothing (R32, R274). -/
def Obligations.IllegalBundleTraps : Prop :=
  ∀ (s : State) (c k : Nat) (w : BitVec 256) (i : Instr), i = .bundleIssue w ∧ bundleCk w = false ∨ i = .checkpoint w →
    s.Reaches c k → (bundleOfWord w).bad ≠ 0 →
    exec i s = .next (raiseTrap (s.trapped c k w ((bundleEnv s c k (bundleOfWord w)).units (bundleOfWord w))) c k
      (trapIllegal (bundleOfWord w).bad) (s.ctx c k).pc (s.ctx c k).pc)

/-- A legal bundle, with or without CK or of one slot, that reaches issue with the budget at 0 does not issue: its context takes the trap
"budget exhausted" at that bundle, stops, and the trap is for the supervisor (R64). -/
def Obligations.ExhaustedBudgetTraps : Prop :=
  ∀ (s : State) (c k : Nat) (w : BitVec 256) (i : Instr),
    i = .bundleIssue w ∧ bundleCk w = false ∨ i = .checkpoint w ∨ WellFormed i = true ∧ bundleOf i = some w → s.Reaches c k →
    (bundleOfWord w).bad = 0 → (bundleEnv s c k (bundleOfWord w)).illegalNow (bundleOfWord w) = 0 → (s.ctx c k).regs.budget = 0 → k < 4 →
    let u := raiseTrap (s.trapped c k w ((bundleEnv s c k (bundleOfWord w)).units (bundleOfWord w))) c k (trapOf 0x13 0 0)
      (s.ctx c k).pc (s.ctx c k).pc
    exec i s = .next u ∧ (u.ctx c k).status = .stopped ∧ (u.ctx c k).pc = (s.ctx c k).pc ∧
      (u.ctx c k).regs.budget = 0 ∧ u.mem = s.mem

/-- TRAP (R53): the bundle commits in full, and then the software trap is raised with the 16-bit code; its record names the bundle that
would have issued next, any loop event applied. -/
def Obligations.TrapAfterCommit : Prop :=
  ∀ (s : State) (c k : Nat) (g : BitVec 4) (n : BitVec 16), s.Issues c k → (s.ctx c k).regs.rdQ g.toNat = true →
    let t := s.issued s c k (bundleOfCtl ((ctlOf (.trap g n)).getD 0)) [] false .fall
    exec (.trap g n) s = .next (raiseTrap t c k { trapOf 0x02 0 0 with code := n } (s.ctx c k).pc (s.ctx c k).fallen.2)

/-- TAKING A TRAP (R271, R274, R276): the record is valid and holds the bundle, the resume bundle, the class, code and slots in word 0, the
detail words in words 1 and 2, and the count in word 13. With an enabled own vector, no trap being handled and a class that the context
may handle, the context goes to the vector with the frame floor at the depth; otherwise it stops, and within 64 clocks the supervisor
is told. Memory and every other context stay. -/
def Obligations.TakingTrap : Prop :=
  ∀ (s : State) (c k : Nat) (t : Trap) (at_ resume : BitVec 13), k < 4 → t.cls < 64 →
    let y := s.ctx c k
    let u := raiseTrap s c k t at_ resume
    let z := u.ctx c k
    let w0 := mget z.record.words 0 0
    let own := !t.supervisor && y.trapVec.getLsbD 13 && !y.record.valid
    z.record.valid = true ∧ w0.extractLsb' 0 13 = at_ ∧ w0.extractLsb' 13 13 = resume ∧ (w0.extractLsb' 26 6).toNat = t.cls ∧
      w0.extractLsb' 37 11 = t.slots ∧ w0.extractLsb' 48 16 = t.code ∧ w0.getLsbD 36 = y.record.valid ∧
      mget z.record.words 0 1 = t.w1 ∧ mget z.record.words 0 2 = t.w2 ∧ mget z.record.words 0 13 = s.count ∧
      (y.record.valid = false → mget z.record.words 0 3 = y.regs.loopWord) ∧
      (own = true → z.pc = y.trapVec.setWidth 13 ∧ z.status = .ready ∧ z.regs.floor = y.regs.depth ∧ z.regs.spill.prog = 0) ∧
      (own = false → z.status = .stopped ∧ z.pc = resume ∧ z.regs = y.regs ∧
        ∃ p ∈ u.agenda, p.core = c ∧ p.ctx = k ∧ p.due ≤ s.clock + 64 ∧
          p.ev = .supervisor (s.launch y.launch).supervisor.toNat) ∧
      z.region.isOpen = false ∧ u.mem = s.mem ∧ ∀ c' k', (c', k') ≠ (c, k) → k' < 4 → u.ctx c' k' = s.ctx c' k'

/-- RETURNING FROM A TRAP (R275): with a valid record, trec of all ones restores the loop levels, control word, rotation base and burst
progress and goes to the resume bundle, and trec of all ones less one skips the trapped bundle; without one, y is 1 and nothing else
happens. That a wait which the trap interrupted goes on is the model's choice (log 54). -/
def Obligations.ReturnsFromTrap : Prop :=
  ∀ (s : State) (c k : Nat) (g : BitVec 4) (x : BitVec 10) (i : Instr) (skip : Bool),
    (i = .trecResume g x ∧ skip = false ∧ (s.src c k x).val = BitVec.allOnes 64) ∨
      (i = .trecSkip g x ∧ skip = true ∧ (s.src c k x).val = BitVec.allOnes 64 - 1) →
    s.Trig c k g x 0x350 → (s.src c k x).Clean →
    ((s.ctx c k).record.valid = true →
      exec i s = .next (s.returns (s.lands c k 21 2 (some (raw 0)) (some (raw 0)) 0) c k (moveBundle g x 0x350) skip)) ∧
    ((s.ctx c k).record.valid = false →
      exec i s = .next (s.issued (s.lands c k 21 2 (some (raw 0)) (some (raw 1)) 0) c k (moveBundle g x 0x350) [21] false .fall))

/-- A load or store whose access fails a check traps at its bundle with that check's trap and commits nothing (R65, R71, R75, R183, R290). The
faults follow from the addresses: of lsc, a byte outside the three levels has reason 0, a misaligned address reason 1, a page without a pinned
entry reason 3, an absent page reason 4, no right reason 5, and the claim of another core is a claim conflict; of the vector accesses, the
same of the lanes, and lanes in more than one level have reason 2. An aligned access of lsc lies in one level. The order of the checks is
the model's (log 20). -/
def Obligations.FailedAccessTraps : Prop :=
  (∀ (s : State) (c k : Nat) (i : Instr) (g : BitVec 4) (x : BitVec 10) (o n : Nat) (st : Bool) (t : Trap),
    lscAccess i = some (g, x, o, n, st) → s.Trig c k g x (trigCode 5 o) →
    let ea := (s.pS c k 5 0).val + if st then (s.pS c k 5 1).val else (s.src c k x).val
    let accs : List Acc := [⟨ea.toNat, n, st, true⟩]
    (s.env c k 0).Clear accs → (s.pS c k 5 0).Clean → (st = true → (s.pS c k 5 1).Clean) → (st = false → (s.src c k x).Clean) →
    ((s.env c k 0).access ea n n (!st) st = .error t ∨ lscFault s c k ea n st = some t) → (s.ctx c k).region.stage = 0 →
    exec i s = .next (raiseTrap (s.trapped c k (moveBundle g x (trigCode 5 o)) [5]) c k t (s.ctx c k).pc (s.ctx c k).pc)) ∧
  (∀ (s : State) (c k : Nat) (i : Instr) (r : LaneAccess) (t : Trap), lvAccess s c k i = some r →
    s.Trig c k r.g r.x (trigCode r.unit r.code) → (s.env c k 0).Clear (lanesAcc r.addr r.act r.st) → s.bursting c k [r.unit] = false →
    r.ok = true → laneFault s c k r = some t → (s.ctx c k).region.stage = 0 →
    exec i s = .next (raiseTrap (s.trapped c k (moveBundle r.g r.x (trigCode r.unit r.code)) [r.unit]) c k t (s.ctx c k).pc (s.ctx c k).pc))

/-- An operation of sa0, sa1 or sm that reads a poisoned port or source traps at its bundle, with class 0x0E, and commits nothing
(R281). -/
def Obligations.PoisonedScalarTraps : Prop :=
  ∀ (s : State) (c k : Nat) (i : Instr) (r : ScalarRow), scalarA i = some r ∨ scalarB i = some r ∨ scalarM i = some r →
    s.Trig c k r.g r.x (trigCode r.unit r.code) → (s.ctx c k).region.stage = 0 →
    (r.a = true ∧ (s.pS c k r.unit 0).poison = true) ∨ (r.b = true ∧ (s.pS c k r.unit 1).poison = true) ∨
      (s.src c k r.x).poison = true →
    ∃ w, exec i s = .next (raiseTrap (s.trapped c k (moveBundle r.g r.x (trigCode r.unit r.code)) [r.unit]) c k (trapOf 0x0E 0 w)
      (s.ctx c k).pc (s.ctx c k).pc)

/-- fadd, fsub, fmul, fmin and fmax with an operand whose tag is neither raw nor f32, or that has a format mark, trap at their bundle with
a format-tag mismatch, and commit nothing (R74, R121, R126). -/
def Obligations.WrongTagTraps : Prop :=
  ∀ (s : State) (c k : Nat) (i : Instr) (g : BitVec 4) (x : BitVec 10) (u : BitVec 1) (o : Nat), floatPairs i = some (g, x, u, o) →
    s.Trig c k g x (trigCode (8 + 2 * u.toNat) o) → (s.ctx c k).region.stage = 0 →
    let a := s.pV c k (8 + 2 * u.toNat) 0
    let t := s.vsrc c k x
    a.mark = true ∨ t.mark = true ∨ (a.tag ≠ 0 ∧ a.tag ≠ 2) ∨ (t.tag ≠ 0 ∧ t.tag ≠ 2) →
    ∃ tag n, exec i s = .next (raiseTrap (s.trapped c k (moveBundle g x (trigCode (8 + 2 * u.toNat) o)) [8 + 2 * u.toNat]) c k (trapTag tag n)
      (s.ctx c k).pc (s.ctx c k).pc)

/-! ### The scalar units -/

/-- Page A of sa0 and sa1 (R40), with R39's latency of 1 and tag raw. -/
def Obligations.ScalarPageA : Prop :=
  ∀ (s : State) (c k : Nat) (i : Instr) (r : ScalarRow), scalarA i = some r → s.Scalar c k i r
/-- Page B of sa0 and sa1 (R41). -/
def Obligations.ScalarPageB : Prop :=
  ∀ (s : State) (c k : Nat) (i : Instr) (r : ScalarRow), scalarB i = some r → s.Scalar c k i r
/-- sm (R42), with the cases of division of R43. -/
def Obligations.ScalarMultiplyDivide : Prop :=
  ∀ (s : State) (c k : Nat) (i : Instr) (r : ScalarRow), scalarM i = some r → s.Scalar c k i r

/-! ### Loads, stores and exchanges -/

/-- The loads of lsc (R70, R71). -/
def Obligations.ScalarLoads : Prop :=
  ∀ (s : State) (c k : Nat) (i : Instr) (r : UnitRow), lscLoads s c k i = some r → s.Runs c k i r
/-- The stores of lsc, to the carrel and the stacks and to the gallery, in the phase buffer or in a folio that the core claims (R70, R71,
R177, R184). -/
def Obligations.ScalarStores : Prop :=
  ∀ (s : State) (c k : Nat) (i : Instr) (r : UnitRow), lscStores s c k i = some r ∨ lscGalleryStores s c k i = some r → s.Runs c k i r
/-- cas and ldlive (R72, R73). -/
def Obligations.CasAndLiveCount : Prop :=
  ∀ (s : State) (c k : Nat) (i : Instr) (r : UnitRow), lscOthers s c k i = some r → s.Runs c k i r
/-- The vector loads and stores (R69, R70, R74, R75, R177, R184). With no active lane a gather lands at the carrel's latency, and over two
slices an access takes the larger: both are the model's choices (log 50). -/
def Obligations.VectorLoadsAndStores : Prop :=
  ∀ (s : State) (c k : Nat) (i : Instr) (r : UnitRow), lvLoads s c k i = some r ∨ lvStores s c k i = some r → s.Runs c k i r
/-- The spill and fill bursts whose records can all be made (R86). What a burst with nothing left to move does is the model's choice
(log 23), and so is the wait of a bundle that would stop an older burst, which these bundles do not (log 55). -/
def Obligations.SpillBursts : Prop :=
  ∀ (s : State) (c k : Nat) (i : Instr) (r : UnitRow), lvBursts s c k i = some r → s.Runs c k i r
/-- The exchanges, and mark, vac, setm and xst (R77, R82, R183). That mark reads the mark and the blank flag at issue, with the context's own
stores in flight, is the model's choice (log 25). -/
def Obligations.ExchangesAndMarks : Prop :=
  ∀ (s : State) (c k : Nat) (i : Instr) (r : UnitRow), exchanges s c k i = some r ∨ folioOps s c k i = some r → s.Runs c k i r

/-! ### The vector units -/

/-- Page A of va0 and va1 (R96, R97, R126). -/
def Obligations.VectorFloat : Prop :=
  ∀ (s : State) (c k : Nat) (i : Instr) (r : UnitRow), vaFloat s c k i = some r → s.Runs c k i r
/-- The lane operations of page B of va0 and va1 (R128). -/
def Obligations.VectorInteger : Prop :=
  ∀ (s : State) (c k : Nat) (i : Instr) (r : UnitRow), vaInteger s c k i = some r → s.Runs c k i r
/-- The lane moves and the cluster reduction of page B (R129, R130). -/
def Obligations.LaneMoves : Prop :=
  ∀ (s : State) (c k : Nat) (i : Instr) (r : UnitRow), vaLanes s c k i = some r → s.Runs c k i r
/-- The triads (R131, R132). -/
def Obligations.Triads : Prop :=
  ∀ (s : State) (c k : Nat) (i : Instr) (r : UnitRow), triad s c k i = some r → s.Runs c k i r
/-- The special functions (R134). -/
def Obligations.SpecialFunctions : Prop :=
  ∀ (s : State) (c k : Nat) (i : Instr) (r : UnitRow), vsRows s c k i = some r → s.Runs c k i r
/-- The quantisation unit (R107, R135 to R138). The model's choices here: a block of infinities has no largest value and takes scale 0, and
which flags cvsb and cvub set where their rules give two (log 18). -/
def Obligations.Quantisation : Prop :=
  ∀ (s : State) (c k : Nat) (i : Instr) (r : UnitRow), vqRows s c k i = some r → s.Runs c k i r

/-! ### Engines, the network, the array and the system unit -/

/-- Engine commands, arm, bcst and ecnt (R190, R191, R223 to R228). The frames that a command keeps from its issue (log 22), the earliest
delivery of a broadcast part (log 27), the counter of a bcst to no core (log 56) and ecnt's reading at +2 (log 25) are the model's choices. -/
def Obligations.EngineUnit : Prop :=
  ∀ (s : State) (c k : Nat) (i : Instr) (r : UnitRow), commands s c k i = some r ∨ engineOthers s c k i = some r → s.Runs c k i r
/-- Reductions, rclr and rrd (R185 to R187). That rrd carries the poison of its target alone is the model's choice (log 27). -/
def Obligations.Reductions : Prop :=
  ∀ (s : State) (c k : Nat) (i : Instr) (r : UnitRow), reductions s c k i = some r ∨ readTarget s c k i = some r → s.Runs c k i r
/-- Frames and messages (R188, R204, R205). That a frame whose check fails is void in its window is the model's choice (log 43). -/
def Obligations.FramesAndMessages : Prop :=
  ∀ (s : State) (c k : Nat) (i : Instr) (r : UnitRow), dratrix s c k i = some r ∨ messages s c k i = some r → s.Runs c k i r
/-- The operations of mx (R145 to R150). That mxst reads its item at +2 (log 46), and that a feed which is a no-op is not in flight for
gmode (log 11), are the model's choices. -/
def Obligations.ArrayUnit : Prop :=
  ∀ (s : State) (c k : Nat) (i : Instr) (r : UnitRow), mxSets s c k i = some r ∨ mxOthers s c k i = some r → s.Runs c k i r
/-- The operations of sy (R10, R88, R133, R278, R279). The model's choices here: sbase gives the depth at issue (log 49), a parameter that the
launch has not set reads 0 (log 41), and ctx and trld act at +2 (log 25). -/
def Obligations.SystemUnit : Prop :=
  ∀ (s : State) (c k : Nat) (i : Instr) (r : UnitRow), syRows s c k i = some r → s.Runs c k i r

/-! ### The control slot and the beat slot -/

/-- nop, the long immediates, branches, calls and returns (R35, R46 to R49, R58 to R61, R124). -/
def Obligations.BranchesAndCalls : Prop :=
  ∀ (s : State) (c k : Nat) (i : Instr) (r : CtlRow), branches s c k i = some r → s.Controls c k i r
/-- Hardware loops and the mask stack (R57, R60, R124). A rotating loop's remain is kept modulo 2^64, and a level that brk pops keeps its
other fields: both are the model's choices (log 49). -/
def Obligations.LoopsAndMasks : Prop :=
  ∀ (s : State) (c k : Nat) (i : Instr) (r : CtlRow), loopOps s c k i = some r ∨ maskOps s c k i = some r → s.Controls c k i r
/-- Waits, yield and fences (R50 to R52, R160, R234): each completes, and but for yield the context waits from the next clock on. As a clock
passes, without a tune of -1: a wait of R50, checked in that clock if it is after its bundle's, ends when its condition holds, and the next
bundle may issue in the following clock, where a poisoned carrel word is a trap; a waitc, a phase or a fence ends in the clock in which its
position is reached or nothing it names is in flight; a wait that is not over goes on. -/
def Obligations.WaitsAndFences : Prop :=
  (∀ (s : State) (c k : Nat) (i : Instr) (r : CtlRow), waitOps s c k i = some r → s.Controls c k i r) ∧
  (∀ (s : State) (c k : Nat) (w : Wait), (s.ctx c k).status = .waiting w → s.pick = none → s.saving c k = false → s.gs.tune ≠ 3 →
    ∃ t, step s = .next t ∧ t.clock = s.clock + 1 ∧ (t.ctx c k).pc = (s.ctx c k).pc ∧ (t.ctx c k).regs.budget = (s.ctx c k).regs.budget ∧
      (w.checked = true → (s.ctx c k).readyAt ≤ s.clock → s.met c k w = true →
        (t.ctx c k).status = .ready ∧ (t.ctx c k).readyAt = t.clock ∧
        (t.ctx c k).ptrap = match w with
          | .weq a _ | .wne a _ =>
            if s.viewPoison c k 1 a.toNat then some (0x0E, BitVec.ofNat 64 (a.toNat / 16 * 16), poisonWord 0 5 false)
            else (s.ctx c k).ptrap
          | _ => (s.ctx c k).ptrap) ∧
      (w.checked = true → s.clock < (s.ctx c k).readyAt ∨ s.met c k w = false → (t.ctx c k).status = .waiting w) ∧
      (w.checked = false → (t.ctx c k).status = if t.over c k w && decide ((s.ctx c k).readyAt ≤ t.clock) then .ready else .waiting w))
/-- phase, tune, sysc, halt and ckend (R54, R55, R175, R176, R200, R212). That sysc passes S1 to S7 without a check of their poison (log 49),
and that a phase of the opening's own cycle is no skew (log 56), are the model's choices. -/
def Obligations.PhasesAndServices : Prop :=
  ∀ (s : State) (c k : Nat) (i : Instr) (r : CtlRow), systemOps s c k i = some r → s.Controls c k i r
/-- The beats (R151 to R157). The free time of a beat that reads the stacks, and what a no-op gfeed checks (log 11), the scale entries that a
short row reads and the rows beyond the extent, which give no term (log 47), are the model's choices. -/
def Obligations.Beats : Prop :=
  ∀ (s : State) (c k : Nat) (i : Instr) (r : BeatRow), beats s c k i = some r → s.Beats c k i r

/-! ### The control cores -/

/-- The Xzgl instructions in machine mode (R242, R243, R251, R262, R264 to R270, R286). The count of retired instructions and the pc of the
next word are those of the RISC-V base that the model presumes (log 7); the precedence of the codes of zlaunch and zpreempt (log 33), the free
moments of a cancel, a save and a reset (log 31) and what zbudget does to a stopped context (log 41) are the model's choices. -/
def Obligations.XzglInstructions : Prop :=
  ∀ (s : State) (n : Nat) (i : Instr) (r : XzglRow), xzglRows s n i = some r → s.Runs32 n → (s.cc n).machine = true → r.ok = true →
    exec i s = .next (s.retires r.post.1 n r.rd r.post.2)

/-- An Xzgl instruction in user mode is an illegal instruction (R264): the control core enters its exception handler in machine mode, with
mepc and mcause as the RISC-V manuals have them, and mtval the word or 0 (log 7). -/
def Obligations.XzglNeedsMachineMode : Prop :=
  ∀ (s : State) (n : Nat) (i : Instr) (w : BitVec 32), xzglOf i = some w → s.Runs32 n → (s.cc n).machine = false →
    ∃ t, exec i s = .next t ∧ (t.cc n).machine = true ∧ (t.cc n).pc = (s.cc n).vector ∧ mget (t.cc n).csr 0 0x341 = (s.cc n).pc ∧
      mget (t.cc n).csr 0 0x342 = 2 ∧ (mget (t.cc n).csr 0 0x343 = w.setWidth 64 ∨ mget (t.cc n).csr 0 0x343 = 0) ∧
      (t.cc n).x = (s.cc n).x ∧ t.mem = s.mem ∧ t.cores = s.cores ∧ t.ctl.launches = s.ctl.launches

/-- The CSR instructions that are steps of their own (R242, R244, R255, R262, R276, R292), in machine mode: rd takes the old value. The forms
of a CSR write, the old value in rd and the count of retired instructions are those of the RISC-V base that the model presumes (log 7); the free
times (log 31) and what ends a takeover (log 34) are the model's choices. -/
def Obligations.CsrSteps : Prop :=
  (∀ (s : State) (n : Nat) (i : Instr) (w : BitVec 32) (a : Nat) (wr : Bool) (old : BitVec 64) (u : State),
    csrRow s n i = some (w, a, wr, old, u) → s.Runs32 n → (s.cc n).machine = true → csrNumber w = a → csrWrites w = wr →
      exec i s = .next (s.retires u n (w.extractLsb' 7 5) old)) ∧
  (∀ (s : State) (n : Nat) (w : BitVec 32), s.Runs32 n → (s.cc n).machine = true → csrNumber w = 0x7C3 → csrWrites w = true →
    exec (.zxinvWrite w) s = .next (if s.withdrawing n w then s.withdraws n w else s.invalidates n w))

/-- CONTROL_CORE_INSTRUCTION (R241; the RISC-V base is log 7's). The upper immediates, the register and immediate arithmetic, and the loads
and stores that reach memory retire with their value in rd; so do jumps, branches, lr, sc, the atomics, fence, wfi, mret and the CSR
instructions, in a word or a compressed form, with the pc where they go. An exception enters the handler in machine mode: mepc holds the pc,
mcause the cause, mtval the value or 0, MPIE what MIE was, MPP the mode, and MIE is 0; no integer register, no byte and no core changes. -/
def Obligations.ControlCoreArithmeticAndMemory : Prop :=
  (∀ (s : State) (n : Nat) (w : BitVec 32) (rd : BitVec 5) (u : State) (v : BitVec 64), rvRow s n w = some (rd, u, v) → s.Runs32 n →
    (s.cc n).fetches = true → exec (.controlCoreInstruction w) s = .next (s.retires u n rd v)) ∧
  (∀ (s : State) (n : Nat) (w x : BitVec 32) (len : BitVec 64) (rd : BitVec 5) (u : State) (v pc : BitVec 64),
    rvWord w = some (x, len) → rvFlow s n x len = some (rd, u, v, pc) → s.Runs32 n → (s.cc n).fetches = true →
      exec (.controlCoreInstruction w) s = .next (u.retiresTo n rd v pc)) ∧
  (∀ (s : State) (n : Nat) (w : BitVec 32) (cause : Nat) (value : BitVec 64), rvExcept s n w = some (cause, value) → s.Runs32 n →
    ∃ t, exec (.controlCoreInstruction w) s = .next t ∧ (t.cc n).machine = true ∧ (t.cc n).pc = (s.cc n).vector ∧
      mget (t.cc n).csr 0 0x341 = (s.cc n).pc ∧ mget (t.cc n).csr 0 0x342 = BitVec.ofNat 64 cause ∧
      (mget (t.cc n).csr 0 0x343 = value ∨ mget (t.cc n).csr 0 0x343 = 0) ∧
      (mget (t.cc n).csr 0 0x300).getLsbD 3 = false ∧
      (mget (t.cc n).csr 0 0x300).getLsbD 7 = (mget (s.cc n).csr 0 0x300).getLsbD 3 ∧
      (mget (t.cc n).csr 0 0x300).extractLsb' 11 2 = (if (s.cc n).machine then 3 else 0) ∧
      (t.cc n).x = (s.cc n).x ∧ t.mem = s.mem ∧ t.cores = s.cores ∧ t.ctl.launches = s.ctl.launches)

/-! ### Operations that are due -/

/-- Results, spill records, vac and setm, beats, reductions, messages and broadcasts at their landing (R30, R69, R72, R82, R86, R87, R153 to
R157, R186 to R188, R192). The model's choices here: cas finds the context's own older stores, and ecnt, ctx and recipes are read and written
at the landing (log 25), as mxst is (log 46); the order and the poison of delivered parts (log 53); where y of a burst lands (log 23); the raw
read of a cell that its lanes cannot hold (log 18). -/
def Obligations.Landings : Prop :=
  ∀ (s : State) (p : Pending) (r : EventRow),
    landings (s.taken p) p = some r ∨ spillRows (s.taken p) p = some r ∨ folioLandings (s.taken p) p = some r ∨
      beatLandings (s.taken p) p = some r ∨ networkArrivals (s.taken p) p = some r → s.Due p r

/-- EXCHANGE_COMPLETION (R70, R77): the bytes and the poison of two distinct places of the size of the exchange, aligned to it, change
places, and an exchange of a place with itself moves nothing; every other byte, poison bit, mark and blank flag of every level is as before.
A folio exchange swaps the marks and the blank flags; a leaf exchange leaves the marks, and of two distinct leaves it clears the blank flags
of the folios. The count goes up by one, and z and y take the marks now at the two places. -/
def Obligations.ExchangeSwapsPlaces : Prop :=
  ∀ (s : State) (p : Pending) (leaf : Bool) (a b : Loc), s.cause = .due p → p.ev = .xch leaf a b → p.ctx < 4 → s.memOk = true →
    1 ≤ a.lvl → a.lvl ≤ 3 → 1 ≤ b.lvl → b.lvl ≤ 3 →
    let n := if leaf then 256 else 16384
    let same := a.lvl = b.lvl ∧ a.core = b.core ∧ a.pa = b.pa
    a.pa % n = 0 → b.pa % n = 0 → (same ∨ locHits a n b.lvl b.core b.pa n = false) →
    ∃ t, exec .exchangeCompletion s = .next t ∧
      (∀ i, i < n → t.levelByte a.lvl a.core (a.pa + i) = s.levelByte b.lvl b.core (b.pa + i) ∧
        t.levelByte b.lvl b.core (b.pa + i) = s.levelByte a.lvl a.core (a.pa + i)) ∧
      (∀ lvl c x, 1 ≤ lvl → lvl ≤ 3 → locHits a n lvl c x 1 = false → locHits b n lvl c x 1 = false →
        t.levelByte lvl c x = s.levelByte lvl c x) ∧
      (∀ i, i < n / 16 → t.levelPoison a.lvl a.core (a.pa / 16 + i) = s.levelPoison b.lvl b.core (b.pa / 16 + i) ∧
        t.levelPoison b.lvl b.core (b.pa / 16 + i) = s.levelPoison a.lvl a.core (a.pa / 16 + i)) ∧
      (∀ lvl c i, 1 ≤ lvl → lvl ≤ 3 → locHits a n lvl c (16 * i) 16 = false → locHits b n lvl c (16 * i) 16 = false →
        t.levelPoison lvl c i = s.levelPoison lvl c i) ∧
      (∀ l : Loc, 1 ≤ l.lvl → l.lvl ≤ 3 → let f := l.pa / 16384 * 16384
        locHits a n l.lvl l.core f 16384 = false → locHits b n l.lvl l.core f 16384 = false →
        t.markAt l = s.markAt l ∧ t.blankAt l = s.blankAt l) ∧
      (leaf = false ∨ same → t.blankAt a = s.blankAt b ∧ t.blankAt b = s.blankAt a) ∧
      (leaf = true → ¬ same → t.blankAt a = false ∧ t.blankAt b = false) ∧
      (t.ctx p.core p.ctx).regs.xcnt = (s.ctx p.core p.ctx).regs.xcnt + 1 ∧
      (leaf = false → t.markAt a = s.markAt b ∧ t.markAt b = s.markAt a) ∧
      (leaf = true → t.markAt a = s.markAt a ∧ t.markAt b = s.markAt b) ∧
      ((t.ctx p.core p.ctx).regs.rdSL 16 0).val = (t.markAt a).setWidth 64 ∧
      ((t.ctx p.core p.ctx).regs.rdSL 16 1).val = (t.markAt b).setWidth 64

/-- Engine commands, page walks and gallery banks (R83, R210, R223, R230 to R233, R291). What an engine's reads find between its start and its
end (log 12), its page frames (log 22) and its free times (log 2) are the model's choices. -/
def Obligations.EnginesWalksAndBanks : Prop :=
  ∀ (s : State) (p : Pending) (r : EventRow), engineEvents (s.taken p) p = some r ∨ pagesAndBanks (s.taken p) p = some r → s.Due p r

/-- Tasks, launches, services, holds, reruns, pre-emption, reset and takeover (R7, R54, R180, R209, R218, R219, R244, R250, R254, R258,
R263, R276, R284, R287, R308). The model's choices here: the free moments of a cancel, halt, save and reset (log 31), what a takeover does
(log 34), records written in one go (log 44), how requests make one hold (log 30), the saved image (log 32), and a service that ends a wait which
a trap has interrupted (log 54). -/
def Obligations.LaunchesServicesAndControl : Prop :=
  ∀ (s : State) (p : Pending) (r : EventRow),
    launchEvents (s.taken p) p = some r ∨ serviceEvents (s.taken p) p = some r ∨ controlEvents (s.taken p) p = some r → s.Due p r

/-- BOUNDARY_COMPLETE (R179 to R183): every byte of the gallery is the one that the closed entries leave, in ascending task, a byte that two
tasks of a strict launch wrote staying as it was; the digest takes every part that an entry was applied to; each task with a conflict that has
not halted is to take its trap, which names the conflict of the lowest part address, and in it of the lowest other task; the phase number goes
up, the boundary is over unless the launch's last task has ended and its final boundary follows, the closed buffers of the launch's contexts
are empty, the free contexts that waited for it are ready, and no claim stands for the launch. That the merge shows in this step, and that the
entries an ended context leaves are merged too, are the model's choices (log 29). -/
def Obligations.BoundaryCompletes : Prop :=
  ∀ (s : State) (p : Pending) (l : BitVec 64) (b : Boundary), s.cause = .due p → p.ev = .boundary l →
    (s.launch l).boundary = some b → (b.final = true ∨ (s.launch l).ended ≠ (s.launch l).here ∨ (s.launch l).cancelled = true) →
    s.memOk = true →
    ∃ t, exec .boundaryComplete s = .next t ∧ (t.launch l).phase = (s.launch l).phase + 1 ∧ (t.launch l).boundary = none ∧
      (∀ a, t.levelByte 2 0 a = s.mergedByte l a) ∧ t.mem.hbm = s.mem.hbm ∧ t.mem.carrels = s.mem.carrels ∧
      (t.launch l).digest = (s.mergedParts l).foldl (fun d q => d + partDigest t q.1 q.2) (s.launch l).digest ∧
      (t.launch l).conflict = ((s.launch l).conflict || !(s.clashes l).isEmpty) ∧
      (t.launch l).faults = min 0xFFFFFFFF ((s.launch l).faults + (s.clashes l).dedup.length) ∧
      (∀ q ∈ s.ctxsOf l, (t.ctx q.1 q.2).closed = [] ∧
        ((s.ctx q.1 q.2).status = .waiting .boundary → (s.ctx q.1 q.2).launch = l → (t.ctx q.1 q.2).status = .ready) ∧
        ((s.ctx q.1 q.2).task.isSome = true → (s.ctx q.1 q.2).status ≠ .halted →
          (∀ x ∈ s.clashes l, x.1 = (s.ctx q.1 q.2).taskId →
            (∀ y ∈ s.clashes l, y.1 = x.1 → clashBefore x y = true) →
            (t.ctx q.1 q.2).ptrap = some (0x0D, BitVec.ofNat 64 x.2.1, x.2.2.setWidth 64)) ∧
          ((∀ x ∈ s.clashes l, x.1 ≠ (s.ctx q.1 q.2).taskId) → (t.ctx q.1 q.2).ptrap = (s.ctx q.1 q.2).ptrap))) ∧
      (∀ q ∈ t.claims, l ∉ q.2.launches)

/-! ### Inputs and what comes by itself -/

/-- The group, its links, the banks, the temperature, the fabric, and Callote's commands (R10 to R12, R68, R83, R193 to R211, R222, R245, R263,
R302 to R309). The model's choices here: the inputs that clear counters and the desync bit (log 39), a packet's slot by the count modulo 64 and
what a discarded packet loses (log 42), the 512 frames that a port keeps and the numbers of output ports (log 43), the trip (log 37), the
session of Callote (log 13) and what it prints of a launch's collisions (log 52), how requests of peers make one hold (log 30), and how another
package's phase and the Ld of its links are known here (logs 29 and 51). -/
def Obligations.InputsAndCommands : Prop :=
  ∀ (s : State) (x : Input) (r : EventRow), packageInputs s.quietTurn x = some r ∨ calloteRows s.quietTurn x = some r → s.Takes x r

/-- Management messages (R299 to R301; the order of the checks and when CC3 is busy are the model's choices, log 36): an unsigned message is
acted on and answered each time, and a signed one that is accepted is acted on and answered, and its number and reply are remembered for its
key; while CC3 is busy both are answered with result 6 and do nothing else. A message of a type that the table does not have is answered with
result 4 and changes nothing. -/
def Obligations.ManagementMessages : Prop :=
  (∀ (s : State) (x : Input) (i : Instr) (ty : Nat) (fw : Bool) (h : Handler) (m : Msg),
    unsignedMessages x = some (i, ty, fw, h, m) → s.cause = .input x → s.out.stage ≠ 0 → s.out.downTill ≤ s.clock → m.key = 0xFF →
    m.body.length ≤ 1400 → (s.out.stage == 1) = fw →
      exec i s = .next (if s.quietTurn.cc3Busy then s.quietTurn.replies ty m (6, [])
        else (h s.quietTurn m).1.replies ty m (h s.quietTurn m).2)) ∧
  (∀ (s : State) (x : Input) (i : Instr) (ty : Nat) (h : Handler) (m : Msg),
    signedMessages x = some (i, ty, h, m) → s.cause = .input x → s.accepts ty m = true →
      let u := (h s.quietTurn m).1
      let a := (h s.quietTurn m).2
      let reply : Output := ⟨ty + 0x8000, m.key, m.counter, leBytes 4 a.1 ++ a.2, [], m.source, (0, 0)⟩
      let v := { u with out := { u.out with last := mput u.out.last m.key.toNat (m.counter.extractLsb' 0 40)
                                            replies := mput u.out.replies m.key.toNat reply } }
      exec i s = .next (if s.quietTurn.cc3Busy then s.quietTurn.replies ty m (6, []) else v.replies ty m a)) ∧
  (∀ (s : State) (ty : BitVec 16) (m : Msg), s.cause = .input (.otherMessage ty m) → s.out.stage ≠ 0 → s.out.downTill ≤ s.clock →
    ty.toNat < 0x8000 → ty.toNat ∉ [1, 2, 3, 0x10, 0x11, 0x20, 0x21, 0x30, 0x40, 0x50, 0x51, 0x60, 0x61] →
      exec .statusRead s = .next (s.quietTurn.replies ty.toNat m (4, [])))

/-- The freeze and the resumption of the count, Dratrix slots, CC3's reboot, and the boot (R201, R202, R209, R293, R294, R309). The clocks of the
freeze and of the resumption (log 30), the length of the firmware and the order of the copies (log 35), the stops that CC3's reboot releases
(log 37) and the frames of a port's slots (log 43) are the model's choices. -/
def Obligations.OwnStepsAndBoot : Prop :=
  (∀ (s : State) (r : EventRow), r ∈ ownSteps s → r.ok = true → exec r.i s = .next r.post) ∧
  (∀ (s : State), s.cause = .input .boot → (bootRow s.quietTurn).ok = true → exec .boot s = .next (bootRow s.quietTurn).post)
end

