-- ==== Sys2Proof/Laws/Maps.lean ====
section
/-! SUPPORT. Laws of finite maps and of memory: a read after a write, other keys, the canonical form. -/

namespace Sys2Proof.Machine

/-! ### Maps -/

@[simp] theorem mget_mput_self {α : Type} (m : SMap α) (d v : α) (k : Nat) : mget (mput m k v) d k = v := by
  induction m with
  | nil => simp [mput, mget]
  | cons h t ih =>
    simp only [mput]
    split
    · simp [mget]
    · split
      · simp [mget]
      · rename_i h1 h2
        simp [mget, h2, ih]

theorem mget_mput_other {α : Type} (m : SMap α) (d v : α) (k j : Nat) (h : j ≠ k) : mget (mput m k v) d j = mget m d j := by
  induction m with
  | nil => simp [mput, mget, h.symm]
  | cons q t ih =>
    simp only [mput]
    split
    · simp [mget, h.symm]
    · split
      · rename_i h2
        simp [mget, h.symm, h2]
      · simp only [mget, ih]

@[simp] theorem mput_mput {α : Type} (m : SMap α) (k : Nat) (v w : α) : mput (mput m k v) k w = mput m k w := by
  induction m with
  | nil => simp [mput]
  | cons q t ih =>
    simp only [mput]
    split
    · simp [mput]
    · split
      · rename_i h1 h2
        simp [mput]
      · rename_i h1 h2
        simp [mput, h1, h2, ih]

theorem mput_all {α : Type} (p : α → Bool) (m : SMap α) (k : Nat) (v : α) (hm : m.all (fun e => p e.2) = true) (hv : p v = true) :
    (mput m k v).all (fun e => p e.2) = true := by
  induction m with
  | nil => simp [mput, hv]
  | cons q t ih =>
    simp only [List.all_cons, Bool.and_eq_true] at hm
    simp only [mput]
    split
    · simp only [List.all_cons, Bool.and_eq_true]; exact ⟨hv, hm⟩
    · split
      · simp only [List.all_cons, Bool.and_eq_true]; exact ⟨hv, hm.2⟩
      · simp only [List.all_cons, Bool.and_eq_true]; exact ⟨hm.1, ih hm.2⟩

theorem mget_all {α : Type} (p : α → Bool) (m : SMap α) (d : α) (k : Nat) (hm : m.all (fun e => p e.2) = true) (hd : p d = true) :
    p (mget m d k) = true := by
  induction m with
  | nil => exact hd
  | cons q t ih =>
    simp only [List.all_cons, Bool.and_eq_true] at hm
    simp only [mget]
    split
    · exact hm.1
    · exact ih hm.2

/-! ### Memory -/

theorem Memory.above_mono (lo hi : Nat) (h : lo ≤ hi) (m : Memory) (hm : Memory.above hi m = true) : Memory.above lo m = true := by
  cases m with
  | nil => rfl
  | cons q t =>
    simp only [Memory.above, Bool.and_eq_true, decide_eq_true_eq] at hm ⊢
    exact ⟨⟨by omega, hm.1.2⟩, hm.2⟩

theorem Memory.write_above (lo : Nat) (m : Memory) (a : Nat) (b : Byte) (ha : lo ≤ a) (hm : Memory.above lo m = true) :
    Memory.above lo (Memory.write m a b) = true := by
  induction m generalizing lo with
  | nil =>
    simp only [Memory.write]
    split
    · rfl
    · rename_i hb
      simp only [Memory.above, Bool.and_eq_true, decide_eq_true_eq]
      exact ⟨⟨ha, bne_iff_ne.mpr hb⟩, trivial⟩
  | cons q t ih =>
    simp only [Memory.above, Bool.and_eq_true, decide_eq_true_eq] at hm
    simp only [Memory.write]
    split
    · rename_i hlt
      split
      · simp only [Memory.above, Bool.and_eq_true, decide_eq_true_eq]; exact hm
      · rename_i hb
        simp only [Memory.above, Bool.and_eq_true, decide_eq_true_eq]
        exact ⟨⟨ha, bne_iff_ne.mpr hb⟩, ⟨by omega, hm.1.2⟩, hm.2⟩
    · split
      · rename_i _ hq
        split
        · exact Memory.above_mono lo (q.1 + 1) (by omega) t hm.2
        · rename_i hb
          simp only [Memory.above, Bool.and_eq_true, decide_eq_true_eq]
          exact ⟨⟨ha, bne_iff_ne.mpr hb⟩, by rw [← hq]; exact hm.2⟩
      · rename_i h1 h2
        simp only [Memory.above, Bool.and_eq_true, decide_eq_true_eq]
        exact ⟨hm.1, ih (q.1 + 1) (by omega) hm.2⟩

/-- A write keeps the canonical form. -/
theorem Memory.write_wf (m : Memory) (a : Nat) (b : Byte) (hm : Memory.wf m = true) : Memory.wf (Memory.write m a b) = true :=
  Memory.write_above 0 m a b (Nat.zero_le a) hm

/-- Writing a list of cells keeps the canonical form. -/
theorem Memory.writeAll_wf (cells : List (Nat × Byte)) (m : Memory) (hm : Memory.wf m = true) :
    Memory.wf (Memory.writeAll m cells) = true := by
  induction cells generalizing m with
  | nil => exact hm
  | cons c t ih => exact ih (Memory.write m c.1 c.2) (Memory.write_wf m c.1 c.2 hm)

theorem Memory.filter_above (p : Nat × Byte → Bool) (lo : Nat) (m : Memory) (hm : Memory.above lo m = true) :
    Memory.above lo (m.filter p) = true := by
  induction m generalizing lo with
  | nil => rfl
  | cons q t ih =>
    simp only [Memory.above, Bool.and_eq_true, decide_eq_true_eq] at hm
    simp only [List.filter_cons]
    split
    · simp only [Memory.above, Bool.and_eq_true, decide_eq_true_eq]
      exact ⟨hm.1, ih (q.1 + 1) hm.2⟩
    · exact Memory.above_mono lo (q.1 + 1) (by omega) _ (ih (q.1 + 1) hm.2)

/-- Removing entries keeps the canonical form. -/
theorem Memory.filter_wf (p : Nat × Byte → Bool) (m : Memory) (hm : Memory.wf m = true) : Memory.wf (m.filter p) = true :=
  Memory.filter_above p 0 m hm

theorem Memory.read_below (lo a : Nat) (h : a < lo) (m : Memory) (hm : Memory.above lo m = true) : Memory.read m a = 0 := by
  induction m generalizing lo with
  | nil => rfl
  | cons q t ih =>
    simp only [Memory.above, Bool.and_eq_true, decide_eq_true_eq] at hm
    have : q.1 ≠ a := by omega
    simp only [Memory.read, this, if_false]
    exact ih (q.1 + 1) (by omega) hm.2

theorem Memory.read_write_above (lo : Nat) (m : Memory) (a : Nat) (b : Byte) (hm : Memory.above lo m = true) :
    Memory.read (Memory.write m a b) a = b := by
  induction m generalizing lo with
  | nil =>
    simp only [Memory.write]
    split
    · rename_i hb; simp [Memory.read, hb]
    · simp [Memory.read]
  | cons q t ih =>
    simp only [Memory.above, Bool.and_eq_true, decide_eq_true_eq] at hm
    simp only [Memory.write]
    split
    · rename_i hlt
      split
      · rename_i hb
        rw [hb]
        exact Memory.read_below q.1 a (by omega) (q :: t) (by
          simp only [Memory.above, Bool.and_eq_true, decide_eq_true_eq]; exact ⟨⟨by omega, hm.1.2⟩, hm.2⟩)
      · simp [Memory.read]
    · split
      · rename_i _ hq
        split
        · rename_i hb
          rw [hb]
          exact Memory.read_below (q.1 + 1) a (by omega) t hm.2
        · simp [Memory.read]
      · rename_i h1 h2
        simp only [Memory.read, h2, if_false]
        exact ih (q.1 + 1) hm.2

/-- A byte reads as it was last written. -/
theorem Memory.read_write_self (m : Memory) (a : Nat) (b : Byte) (hm : Memory.wf m = true) :
    Memory.read (Memory.write m a b) a = b := Memory.read_write_above 0 m a b hm

/-- A write leaves every other byte alone. -/
theorem Memory.read_write_other (m : Memory) (a x : Nat) (b : Byte) (h : x ≠ a) :
    Memory.read (Memory.write m a b) x = Memory.read m x := by
  induction m with
  | nil =>
    simp only [Memory.write]
    split
    · rfl
    · simp [Memory.read, h.symm]
  | cons q t ih =>
    simp only [Memory.write]
    split
    · split
      · rfl
      · simp [Memory.read, h.symm]
    · split
      · rename_i _ hq
        split
        · have : q.1 ≠ x := by omega
          simp [Memory.read, this]
        · have : q.1 ≠ x := by omega
          simp [Memory.read, this, h.symm]
      · simp only [Memory.read, ih]

/-- Cells leave the bytes at other addresses alone. -/
theorem Memory.read_writeAll_other (cells : List (Nat × Byte)) (m : Memory) (x : Nat) (h : ∀ c ∈ cells, c.1 ≠ x) :
    Memory.read (Memory.writeAll m cells) x = Memory.read m x := by
  induction cells generalizing m with
  | nil => rfl
  | cons c t ih =>
    have h1 := ih (Memory.write m c.1 c.2) (fun q hq => h q (List.mem_cons_of_mem _ hq))
    have h2 := Memory.read_write_other m c.1 x c.2 (Ne.symm (h c (List.mem_cons_self ..)))
    exact h1.trans h2

/-! ### Levels -/

/-- Every level that Mem.wf covers has its canonical form. -/
theorem Mem.level_wf (m : Mem) (lvl core : Nat) (hm : Mem.wf m = true) : Memory.wf (m.level lvl core).bytes = true := by
  simp only [Mem.wf, Bool.and_eq_true] at hm
  simp only [Mem.level]
  split
  · exact mget_all (fun x : Store => Memory.wf x.bytes) m.carrels Store.zero core hm.2 rfl
  · exact hm.1.1.1
  · exact hm.1.1.2

/-- A level that is replaced by one in canonical form keeps Mem.wf. -/
theorem Mem.setLevel_wf (m : Mem) (lvl core : Nat) (x : Store) (hm : Mem.wf m = true) (hx : Memory.wf x.bytes = true) :
    Mem.wf (m.setLevel lvl core x) = true := by
  simp only [Mem.wf, Bool.and_eq_true] at hm ⊢
  simp only [Mem.setLevel]
  split
  · exact ⟨hm.1, mput_all (fun x : Store => Memory.wf x.bytes) m.carrels core x hm.2 hx⟩
  · exact ⟨⟨⟨hx, hm.1.1.2⟩, hm.1.2⟩, hm.2⟩
  · exact ⟨⟨⟨hm.1.1.1, hx⟩, hm.1.2⟩, hm.2⟩

theorem Store.write_wf (x : Store) (cells : List (Nat × Byte)) (pois : List (Nat × Bool)) (hx : Memory.wf x.bytes = true) :
    Memory.wf (x.write cells pois).bytes = true := Memory.writeAll_wf cells x.bytes hx

theorem Store.zeroRange_wf (x : Store) (a n : Nat) (hx : Memory.wf x.bytes = true) : Memory.wf (x.zeroRange a n).bytes = true :=
  Memory.filter_wf _ x.bytes hx

theorem Store.makeBlank_wf (x : Store) (a : Nat) (hx : Memory.wf x.bytes = true) : Memory.wf (x.makeBlank a).bytes = true :=
  Store.zeroRange_wf x _ _ hx

/-- The write of cells into a level, with the writes of a waking bank queued, keeps Mem.wf. -/
theorem State.putCells_wf (s : State) (lvl core : Nat) (cells : List (Nat × Byte)) (pois : List (Nat × Bool))
    (hs : Mem.wf s.mem = true) : Mem.wf (s.putCells lvl core cells pois).mem = true := by
  have h := Mem.setLevel_wf s.mem lvl core _ hs
    (Store.write_wf (s.mem.level lvl core) (cells.filter fun c => !(lvl == 2 && (s.bank (frameOf c.1)).state == 2))
      (pois.filter fun p => !(lvl == 2 && (s.bank (frameOf (p.1 * 16))).state == 2)) (Mem.level_wf s.mem lvl core hs))
  exact h

end Sys2Proof.Machine
end

