-- ==== Sys2Proof/Laws/State.lean ====
section
/-! SUPPORT. What each update of the state leaves in each of its fields; cores and contexts after an update of one of them. -/

namespace Sys2Proof.Machine

/-! ### State.setCore -/

@[simp] theorem State.setCore_clock (s : State) (c : Nat) (x : Core) : (s.setCore c x).clock = s.clock := rfl
@[simp] theorem State.setCore_count (s : State) (c : Nat) (x : Core) : (s.setCore c x).count = s.count := rfl
@[simp] theorem State.setCore_gs (s : State) (c : Nat) (x : Core) : (s.setCore c x).gs = s.gs := rfl
@[simp] theorem State.setCore_ports (s : State) (c : Nat) (x : Core) : (s.setCore c x).ports = s.ports := rfl
@[simp] theorem State.setCore_free (s : State) (c : Nat) (x : Core) : (s.setCore c x).free = s.free := rfl
@[simp] theorem State.setCore_turn (s : State) (c : Nat) (x : Core) : (s.setCore c x).turn = s.turn := rfl
@[simp] theorem State.setCore_cause (s : State) (c : Nat) (x : Core) : (s.setCore c x).cause = s.cause := rfl
@[simp] theorem State.setCore_inputs (s : State) (c : Nat) (x : Core) : (s.setCore c x).inputs = s.inputs := rfl
@[simp] theorem State.setCore_agenda (s : State) (c : Nat) (x : Core) : (s.setCore c x).agenda = s.agenda := rfl
@[simp] theorem State.setCore_tried (s : State) (c : Nat) (x : Core) : (s.setCore c x).tried = s.tried := rfl
@[simp] theorem State.setCore_cores (s : State) (c : Nat) (x : Core) : (s.setCore c x).cores =
    mput s.cores c x := rfl
@[simp] theorem State.setCore_mem (s : State) (c : Nat) (x : Core) : (s.setCore c x).mem = s.mem := rfl
@[simp] theorem State.setCore_claims (s : State) (c : Nat) (x : Core) : (s.setCore c x).claims = s.claims := rfl
@[simp] theorem State.setCore_banks (s : State) (c : Nat) (x : Core) : (s.setCore c x).banks = s.banks := rfl
@[simp] theorem State.setCore_tables (s : State) (c : Nat) (x : Core) : (s.setCore c x).tables = s.tables := rfl
@[simp] theorem State.setCore_sliceMap (s : State) (c : Nat) (x : Core) : (s.setCore c x).sliceMap = s.sliceMap := rfl
@[simp] theorem State.setCore_engines (s : State) (c : Nat) (x : Core) : (s.setCore c x).engines = s.engines := rfl
@[simp] theorem State.setCore_slots (s : State) (c : Nat) (x : Core) : (s.setCore c x).slots = s.slots := rfl
@[simp] theorem State.setCore_netctr (s : State) (c : Nat) (x : Core) : (s.setCore c x).netctr = s.netctr := rfl
@[simp] theorem State.setCore_lastPacket (s : State) (c : Nat) (x : Core) : (s.setCore c x).lastPacket = s.lastPacket := rfl
@[simp] theorem State.setCore_ctl (s : State) (c : Nat) (x : Core) : (s.setCore c x).ctl = s.ctl := rfl
@[simp] theorem State.setCore_out (s : State) (c : Nat) (x : Core) : (s.setCore c x).out = s.out := rfl

/-! ### State.setCtx -/

@[simp] theorem State.setCtx_clock (s : State) (c k : Nat) (y : Ctx) : (s.setCtx c k y).clock = s.clock := rfl
@[simp] theorem State.setCtx_count (s : State) (c k : Nat) (y : Ctx) : (s.setCtx c k y).count = s.count := rfl
@[simp] theorem State.setCtx_gs (s : State) (c k : Nat) (y : Ctx) : (s.setCtx c k y).gs = s.gs := rfl
@[simp] theorem State.setCtx_ports (s : State) (c k : Nat) (y : Ctx) : (s.setCtx c k y).ports = s.ports := rfl
@[simp] theorem State.setCtx_free (s : State) (c k : Nat) (y : Ctx) : (s.setCtx c k y).free = s.free := rfl
@[simp] theorem State.setCtx_turn (s : State) (c k : Nat) (y : Ctx) : (s.setCtx c k y).turn = s.turn := rfl
@[simp] theorem State.setCtx_cause (s : State) (c k : Nat) (y : Ctx) : (s.setCtx c k y).cause = s.cause := rfl
@[simp] theorem State.setCtx_inputs (s : State) (c k : Nat) (y : Ctx) : (s.setCtx c k y).inputs = s.inputs := rfl
@[simp] theorem State.setCtx_agenda (s : State) (c k : Nat) (y : Ctx) : (s.setCtx c k y).agenda = s.agenda := rfl
@[simp] theorem State.setCtx_tried (s : State) (c k : Nat) (y : Ctx) : (s.setCtx c k y).tried = s.tried := rfl
@[simp] theorem State.setCtx_cores (s : State) (c k : Nat) (y : Ctx) : (s.setCtx c k y).cores =
    mput s.cores c ((s.core c).setCtx k y) := rfl
@[simp] theorem State.setCtx_mem (s : State) (c k : Nat) (y : Ctx) : (s.setCtx c k y).mem = s.mem := rfl
@[simp] theorem State.setCtx_claims (s : State) (c k : Nat) (y : Ctx) : (s.setCtx c k y).claims = s.claims := rfl
@[simp] theorem State.setCtx_banks (s : State) (c k : Nat) (y : Ctx) : (s.setCtx c k y).banks = s.banks := rfl
@[simp] theorem State.setCtx_tables (s : State) (c k : Nat) (y : Ctx) : (s.setCtx c k y).tables = s.tables := rfl
@[simp] theorem State.setCtx_sliceMap (s : State) (c k : Nat) (y : Ctx) : (s.setCtx c k y).sliceMap = s.sliceMap := rfl
@[simp] theorem State.setCtx_engines (s : State) (c k : Nat) (y : Ctx) : (s.setCtx c k y).engines = s.engines := rfl
@[simp] theorem State.setCtx_slots (s : State) (c k : Nat) (y : Ctx) : (s.setCtx c k y).slots = s.slots := rfl
@[simp] theorem State.setCtx_netctr (s : State) (c k : Nat) (y : Ctx) : (s.setCtx c k y).netctr = s.netctr := rfl
@[simp] theorem State.setCtx_lastPacket (s : State) (c k : Nat) (y : Ctx) : (s.setCtx c k y).lastPacket = s.lastPacket := rfl
@[simp] theorem State.setCtx_ctl (s : State) (c k : Nat) (y : Ctx) : (s.setCtx c k y).ctl = s.ctl := rfl
@[simp] theorem State.setCtx_out (s : State) (c k : Nat) (y : Ctx) : (s.setCtx c k y).out = s.out := rfl

/-! ### State.setRegs -/

@[simp] theorem State.setRegs_clock (s : State) (c k : Nat) (r : Regs) : (s.setRegs c k r).clock = s.clock := rfl
@[simp] theorem State.setRegs_count (s : State) (c k : Nat) (r : Regs) : (s.setRegs c k r).count = s.count := rfl
@[simp] theorem State.setRegs_gs (s : State) (c k : Nat) (r : Regs) : (s.setRegs c k r).gs = s.gs := rfl
@[simp] theorem State.setRegs_ports (s : State) (c k : Nat) (r : Regs) : (s.setRegs c k r).ports = s.ports := rfl
@[simp] theorem State.setRegs_free (s : State) (c k : Nat) (r : Regs) : (s.setRegs c k r).free = s.free := rfl
@[simp] theorem State.setRegs_turn (s : State) (c k : Nat) (r : Regs) : (s.setRegs c k r).turn = s.turn := rfl
@[simp] theorem State.setRegs_cause (s : State) (c k : Nat) (r : Regs) : (s.setRegs c k r).cause = s.cause := rfl
@[simp] theorem State.setRegs_inputs (s : State) (c k : Nat) (r : Regs) : (s.setRegs c k r).inputs = s.inputs := rfl
@[simp] theorem State.setRegs_agenda (s : State) (c k : Nat) (r : Regs) : (s.setRegs c k r).agenda = s.agenda := rfl
@[simp] theorem State.setRegs_tried (s : State) (c k : Nat) (r : Regs) : (s.setRegs c k r).tried = s.tried := rfl
@[simp] theorem State.setRegs_mem (s : State) (c k : Nat) (r : Regs) : (s.setRegs c k r).mem = s.mem := rfl
@[simp] theorem State.setRegs_claims (s : State) (c k : Nat) (r : Regs) : (s.setRegs c k r).claims = s.claims := rfl
@[simp] theorem State.setRegs_banks (s : State) (c k : Nat) (r : Regs) : (s.setRegs c k r).banks = s.banks := rfl
@[simp] theorem State.setRegs_tables (s : State) (c k : Nat) (r : Regs) : (s.setRegs c k r).tables = s.tables := rfl
@[simp] theorem State.setRegs_sliceMap (s : State) (c k : Nat) (r : Regs) : (s.setRegs c k r).sliceMap = s.sliceMap := rfl
@[simp] theorem State.setRegs_engines (s : State) (c k : Nat) (r : Regs) : (s.setRegs c k r).engines = s.engines := rfl
@[simp] theorem State.setRegs_slots (s : State) (c k : Nat) (r : Regs) : (s.setRegs c k r).slots = s.slots := rfl
@[simp] theorem State.setRegs_netctr (s : State) (c k : Nat) (r : Regs) : (s.setRegs c k r).netctr = s.netctr := rfl
@[simp] theorem State.setRegs_lastPacket (s : State) (c k : Nat) (r : Regs) : (s.setRegs c k r).lastPacket = s.lastPacket := rfl
@[simp] theorem State.setRegs_ctl (s : State) (c k : Nat) (r : Regs) : (s.setRegs c k r).ctl = s.ctl := rfl
@[simp] theorem State.setRegs_out (s : State) (c k : Nat) (r : Regs) : (s.setRegs c k r).out = s.out := rfl

/-! ### State.setLaunch -/

@[simp] theorem State.setLaunch_clock (s : State) (l : BitVec 64) (x : Launch) : (s.setLaunch l x).clock = s.clock := rfl
@[simp] theorem State.setLaunch_count (s : State) (l : BitVec 64) (x : Launch) : (s.setLaunch l x).count = s.count := rfl
@[simp] theorem State.setLaunch_gs (s : State) (l : BitVec 64) (x : Launch) : (s.setLaunch l x).gs = s.gs := rfl
@[simp] theorem State.setLaunch_ports (s : State) (l : BitVec 64) (x : Launch) : (s.setLaunch l x).ports = s.ports := rfl
@[simp] theorem State.setLaunch_free (s : State) (l : BitVec 64) (x : Launch) : (s.setLaunch l x).free = s.free := rfl
@[simp] theorem State.setLaunch_turn (s : State) (l : BitVec 64) (x : Launch) : (s.setLaunch l x).turn = s.turn := rfl
@[simp] theorem State.setLaunch_cause (s : State) (l : BitVec 64) (x : Launch) : (s.setLaunch l x).cause = s.cause := rfl
@[simp] theorem State.setLaunch_inputs (s : State) (l : BitVec 64) (x : Launch) : (s.setLaunch l x).inputs = s.inputs := rfl
@[simp] theorem State.setLaunch_agenda (s : State) (l : BitVec 64) (x : Launch) : (s.setLaunch l x).agenda = s.agenda := rfl
@[simp] theorem State.setLaunch_tried (s : State) (l : BitVec 64) (x : Launch) : (s.setLaunch l x).tried = s.tried := rfl
@[simp] theorem State.setLaunch_cores (s : State) (l : BitVec 64) (x : Launch) : (s.setLaunch l x).cores = s.cores := rfl
@[simp] theorem State.setLaunch_mem (s : State) (l : BitVec 64) (x : Launch) : (s.setLaunch l x).mem = s.mem := rfl
@[simp] theorem State.setLaunch_claims (s : State) (l : BitVec 64) (x : Launch) : (s.setLaunch l x).claims = s.claims := rfl
@[simp] theorem State.setLaunch_banks (s : State) (l : BitVec 64) (x : Launch) : (s.setLaunch l x).banks = s.banks := rfl
@[simp] theorem State.setLaunch_tables (s : State) (l : BitVec 64) (x : Launch) : (s.setLaunch l x).tables = s.tables := rfl
@[simp] theorem State.setLaunch_sliceMap (s : State) (l : BitVec 64) (x : Launch) : (s.setLaunch l x).sliceMap = s.sliceMap := rfl
@[simp] theorem State.setLaunch_engines (s : State) (l : BitVec 64) (x : Launch) : (s.setLaunch l x).engines = s.engines := rfl
@[simp] theorem State.setLaunch_slots (s : State) (l : BitVec 64) (x : Launch) : (s.setLaunch l x).slots = s.slots := rfl
@[simp] theorem State.setLaunch_netctr (s : State) (l : BitVec 64) (x : Launch) : (s.setLaunch l x).netctr = s.netctr := rfl
@[simp] theorem State.setLaunch_lastPacket (s : State) (l : BitVec 64) (x : Launch) : (s.setLaunch l x).lastPacket = s.lastPacket := rfl
@[simp] theorem State.setLaunch_ctl (s : State) (l : BitVec 64) (x : Launch) : (s.setLaunch l x).ctl =
    { s.ctl with launches := mput s.ctl.launches l.toNat x } := rfl
@[simp] theorem State.setLaunch_out (s : State) (l : BitVec 64) (x : Launch) : (s.setLaunch l x).out = s.out := rfl

/-! ### State.setCC -/

@[simp] theorem State.setCC_clock (s : State) (n : Nat) (x : CC) : (s.setCC n x).clock = s.clock := rfl
@[simp] theorem State.setCC_count (s : State) (n : Nat) (x : CC) : (s.setCC n x).count = s.count := rfl
@[simp] theorem State.setCC_gs (s : State) (n : Nat) (x : CC) : (s.setCC n x).gs = s.gs := rfl
@[simp] theorem State.setCC_ports (s : State) (n : Nat) (x : CC) : (s.setCC n x).ports = s.ports := rfl
@[simp] theorem State.setCC_free (s : State) (n : Nat) (x : CC) : (s.setCC n x).free = s.free := rfl
@[simp] theorem State.setCC_turn (s : State) (n : Nat) (x : CC) : (s.setCC n x).turn = s.turn := rfl
@[simp] theorem State.setCC_cause (s : State) (n : Nat) (x : CC) : (s.setCC n x).cause = s.cause := rfl
@[simp] theorem State.setCC_inputs (s : State) (n : Nat) (x : CC) : (s.setCC n x).inputs = s.inputs := rfl
@[simp] theorem State.setCC_agenda (s : State) (n : Nat) (x : CC) : (s.setCC n x).agenda = s.agenda := rfl
@[simp] theorem State.setCC_tried (s : State) (n : Nat) (x : CC) : (s.setCC n x).tried = s.tried := rfl
@[simp] theorem State.setCC_cores (s : State) (n : Nat) (x : CC) : (s.setCC n x).cores = s.cores := rfl
@[simp] theorem State.setCC_mem (s : State) (n : Nat) (x : CC) : (s.setCC n x).mem = s.mem := rfl
@[simp] theorem State.setCC_claims (s : State) (n : Nat) (x : CC) : (s.setCC n x).claims = s.claims := rfl
@[simp] theorem State.setCC_banks (s : State) (n : Nat) (x : CC) : (s.setCC n x).banks = s.banks := rfl
@[simp] theorem State.setCC_tables (s : State) (n : Nat) (x : CC) : (s.setCC n x).tables = s.tables := rfl
@[simp] theorem State.setCC_sliceMap (s : State) (n : Nat) (x : CC) : (s.setCC n x).sliceMap = s.sliceMap := rfl
@[simp] theorem State.setCC_engines (s : State) (n : Nat) (x : CC) : (s.setCC n x).engines = s.engines := rfl
@[simp] theorem State.setCC_slots (s : State) (n : Nat) (x : CC) : (s.setCC n x).slots = s.slots := rfl
@[simp] theorem State.setCC_netctr (s : State) (n : Nat) (x : CC) : (s.setCC n x).netctr = s.netctr := rfl
@[simp] theorem State.setCC_lastPacket (s : State) (n : Nat) (x : CC) : (s.setCC n x).lastPacket = s.lastPacket := rfl
@[simp] theorem State.setCC_ctl (s : State) (n : Nat) (x : CC) : (s.setCC n x).ctl =
    { s.ctl with ccs := mput s.ctl.ccs n x } := rfl
@[simp] theorem State.setCC_out (s : State) (n : Nat) (x : CC) : (s.setCC n x).out = s.out := rfl

/-! ### State.post -/

@[simp] theorem State.post_clock (s : State) (due : Nat) (oc : Bool) (c k : Nat) (ev : Ev) : (s.post due oc c k ev).clock = s.clock := rfl
@[simp] theorem State.post_count (s : State) (due : Nat) (oc : Bool) (c k : Nat) (ev : Ev) : (s.post due oc c k ev).count = s.count := rfl
@[simp] theorem State.post_gs (s : State) (due : Nat) (oc : Bool) (c k : Nat) (ev : Ev) : (s.post due oc c k ev).gs = s.gs := rfl
@[simp] theorem State.post_ports (s : State) (due : Nat) (oc : Bool) (c k : Nat) (ev : Ev) : (s.post due oc c k ev).ports = s.ports := rfl
@[simp] theorem State.post_free (s : State) (due : Nat) (oc : Bool) (c k : Nat) (ev : Ev) : (s.post due oc c k ev).free =
    s.free + 1 := rfl
@[simp] theorem State.post_turn (s : State) (due : Nat) (oc : Bool) (c k : Nat) (ev : Ev) : (s.post due oc c k ev).turn = s.turn := rfl
@[simp] theorem State.post_cause (s : State) (due : Nat) (oc : Bool) (c k : Nat) (ev : Ev) : (s.post due oc c k ev).cause = s.cause := rfl
@[simp] theorem State.post_inputs (s : State) (due : Nat) (oc : Bool) (c k : Nat) (ev : Ev) : (s.post due oc c k ev).inputs = s.inputs := rfl
@[simp] theorem State.post_agenda (s : State) (due : Nat) (oc : Bool) (c k : Nat) (ev : Ev) : (s.post due oc c k ev).agenda =
    s.agenda ++ [⟨due, oc, c, k, 0, false, due, s.free, false, ev⟩] := rfl
@[simp] theorem State.post_tried (s : State) (due : Nat) (oc : Bool) (c k : Nat) (ev : Ev) : (s.post due oc c k ev).tried = s.tried := rfl
@[simp] theorem State.post_cores (s : State) (due : Nat) (oc : Bool) (c k : Nat) (ev : Ev) : (s.post due oc c k ev).cores = s.cores := rfl
@[simp] theorem State.post_mem (s : State) (due : Nat) (oc : Bool) (c k : Nat) (ev : Ev) : (s.post due oc c k ev).mem = s.mem := rfl
@[simp] theorem State.post_claims (s : State) (due : Nat) (oc : Bool) (c k : Nat) (ev : Ev) : (s.post due oc c k ev).claims = s.claims := rfl
@[simp] theorem State.post_banks (s : State) (due : Nat) (oc : Bool) (c k : Nat) (ev : Ev) : (s.post due oc c k ev).banks = s.banks := rfl
@[simp] theorem State.post_tables (s : State) (due : Nat) (oc : Bool) (c k : Nat) (ev : Ev) : (s.post due oc c k ev).tables = s.tables := rfl
@[simp] theorem State.post_sliceMap (s : State) (due : Nat) (oc : Bool) (c k : Nat) (ev : Ev) : (s.post due oc c k ev).sliceMap = s.sliceMap := rfl
@[simp] theorem State.post_engines (s : State) (due : Nat) (oc : Bool) (c k : Nat) (ev : Ev) : (s.post due oc c k ev).engines = s.engines := rfl
@[simp] theorem State.post_slots (s : State) (due : Nat) (oc : Bool) (c k : Nat) (ev : Ev) : (s.post due oc c k ev).slots = s.slots := rfl
@[simp] theorem State.post_netctr (s : State) (due : Nat) (oc : Bool) (c k : Nat) (ev : Ev) : (s.post due oc c k ev).netctr = s.netctr := rfl
@[simp] theorem State.post_lastPacket (s : State) (due : Nat) (oc : Bool) (c k : Nat) (ev : Ev) : (s.post due oc c k ev).lastPacket = s.lastPacket := rfl
@[simp] theorem State.post_ctl (s : State) (due : Nat) (oc : Bool) (c k : Nat) (ev : Ev) : (s.post due oc c k ev).ctl = s.ctl := rfl
@[simp] theorem State.post_out (s : State) (due : Nat) (oc : Bool) (c k : Nat) (ev : Ev) : (s.post due oc c k ev).out = s.out := rfl

/-! ### State.sends -/

@[simp] theorem State.sends_clock (s : State) (due c k : Nat) (ev : Ev) : (s.sends due c k ev).clock = s.clock := rfl
@[simp] theorem State.sends_count (s : State) (due c k : Nat) (ev : Ev) : (s.sends due c k ev).count = s.count := rfl
@[simp] theorem State.sends_gs (s : State) (due c k : Nat) (ev : Ev) : (s.sends due c k ev).gs = s.gs := rfl
@[simp] theorem State.sends_ports (s : State) (due c k : Nat) (ev : Ev) : (s.sends due c k ev).ports = s.ports := rfl
@[simp] theorem State.sends_free (s : State) (due c k : Nat) (ev : Ev) : (s.sends due c k ev).free =
    s.free + 1 := rfl
@[simp] theorem State.sends_turn (s : State) (due c k : Nat) (ev : Ev) : (s.sends due c k ev).turn = s.turn := rfl
@[simp] theorem State.sends_cause (s : State) (due c k : Nat) (ev : Ev) : (s.sends due c k ev).cause = s.cause := rfl
@[simp] theorem State.sends_inputs (s : State) (due c k : Nat) (ev : Ev) : (s.sends due c k ev).inputs = s.inputs := rfl
@[simp] theorem State.sends_agenda (s : State) (due c k : Nat) (ev : Ev) : (s.sends due c k ev).agenda =
    s.agenda ++ [⟨due, true, c, k, 0, false, due, s.free, (s.ctx c k).timed, ev⟩] := rfl
@[simp] theorem State.sends_tried (s : State) (due c k : Nat) (ev : Ev) : (s.sends due c k ev).tried = s.tried := rfl
@[simp] theorem State.sends_cores (s : State) (due c k : Nat) (ev : Ev) : (s.sends due c k ev).cores = s.cores := rfl
@[simp] theorem State.sends_mem (s : State) (due c k : Nat) (ev : Ev) : (s.sends due c k ev).mem = s.mem := rfl
@[simp] theorem State.sends_claims (s : State) (due c k : Nat) (ev : Ev) : (s.sends due c k ev).claims = s.claims := rfl
@[simp] theorem State.sends_banks (s : State) (due c k : Nat) (ev : Ev) : (s.sends due c k ev).banks = s.banks := rfl
@[simp] theorem State.sends_tables (s : State) (due c k : Nat) (ev : Ev) : (s.sends due c k ev).tables = s.tables := rfl
@[simp] theorem State.sends_sliceMap (s : State) (due c k : Nat) (ev : Ev) : (s.sends due c k ev).sliceMap = s.sliceMap := rfl
@[simp] theorem State.sends_engines (s : State) (due c k : Nat) (ev : Ev) : (s.sends due c k ev).engines = s.engines := rfl
@[simp] theorem State.sends_slots (s : State) (due c k : Nat) (ev : Ev) : (s.sends due c k ev).slots = s.slots := rfl
@[simp] theorem State.sends_netctr (s : State) (due c k : Nat) (ev : Ev) : (s.sends due c k ev).netctr = s.netctr := rfl
@[simp] theorem State.sends_lastPacket (s : State) (due c k : Nat) (ev : Ev) : (s.sends due c k ev).lastPacket = s.lastPacket := rfl
@[simp] theorem State.sends_ctl (s : State) (due c k : Nat) (ev : Ev) : (s.sends due c k ev).ctl = s.ctl := rfl
@[simp] theorem State.sends_out (s : State) (due c k : Nat) (ev : Ev) : (s.sends due c k ev).out = s.out := rfl

/-! ### State.pend -/

@[simp] theorem State.pend_clock (s : State) (c k lvl : Nat) (wr : Bool) (lat extra : Nat) (ev : Ev) : (s.pend c k lvl wr lat extra ev).clock = s.clock := rfl
@[simp] theorem State.pend_count (s : State) (c k lvl : Nat) (wr : Bool) (lat extra : Nat) (ev : Ev) : (s.pend c k lvl wr lat extra ev).count = s.count := rfl
@[simp] theorem State.pend_gs (s : State) (c k lvl : Nat) (wr : Bool) (lat extra : Nat) (ev : Ev) : (s.pend c k lvl wr lat extra ev).gs = s.gs := rfl
@[simp] theorem State.pend_ports (s : State) (c k lvl : Nat) (wr : Bool) (lat extra : Nat) (ev : Ev) : (s.pend c k lvl wr lat extra ev).ports = s.ports := rfl
@[simp] theorem State.pend_free (s : State) (c k lvl : Nat) (wr : Bool) (lat extra : Nat) (ev : Ev) : (s.pend c k lvl wr lat extra ev).free =
    s.free + 1 := rfl
@[simp] theorem State.pend_turn (s : State) (c k lvl : Nat) (wr : Bool) (lat extra : Nat) (ev : Ev) : (s.pend c k lvl wr lat extra ev).turn = s.turn := rfl
@[simp] theorem State.pend_cause (s : State) (c k lvl : Nat) (wr : Bool) (lat extra : Nat) (ev : Ev) : (s.pend c k lvl wr lat extra ev).cause = s.cause := rfl
@[simp] theorem State.pend_inputs (s : State) (c k lvl : Nat) (wr : Bool) (lat extra : Nat) (ev : Ev) : (s.pend c k lvl wr lat extra ev).inputs = s.inputs := rfl
@[simp] theorem State.pend_agenda (s : State) (c k lvl : Nat) (wr : Bool) (lat extra : Nat) (ev : Ev) : (s.pend c k lvl wr lat extra ev).agenda =
    s.agenda ++ [⟨s.time (s.ctx c k).byClock + lat + extra, (s.ctx c k).byClock, c, k, lvl, wr, s.time (s.ctx c k).byClock + lat, s.free, (s.ctx c k).timed, ev⟩] := rfl
@[simp] theorem State.pend_tried (s : State) (c k lvl : Nat) (wr : Bool) (lat extra : Nat) (ev : Ev) : (s.pend c k lvl wr lat extra ev).tried = s.tried := rfl
@[simp] theorem State.pend_cores (s : State) (c k lvl : Nat) (wr : Bool) (lat extra : Nat) (ev : Ev) : (s.pend c k lvl wr lat extra ev).cores = s.cores := rfl
@[simp] theorem State.pend_mem (s : State) (c k lvl : Nat) (wr : Bool) (lat extra : Nat) (ev : Ev) : (s.pend c k lvl wr lat extra ev).mem = s.mem := rfl
@[simp] theorem State.pend_claims (s : State) (c k lvl : Nat) (wr : Bool) (lat extra : Nat) (ev : Ev) : (s.pend c k lvl wr lat extra ev).claims = s.claims := rfl
@[simp] theorem State.pend_banks (s : State) (c k lvl : Nat) (wr : Bool) (lat extra : Nat) (ev : Ev) : (s.pend c k lvl wr lat extra ev).banks = s.banks := rfl
@[simp] theorem State.pend_tables (s : State) (c k lvl : Nat) (wr : Bool) (lat extra : Nat) (ev : Ev) : (s.pend c k lvl wr lat extra ev).tables = s.tables := rfl
@[simp] theorem State.pend_sliceMap (s : State) (c k lvl : Nat) (wr : Bool) (lat extra : Nat) (ev : Ev) : (s.pend c k lvl wr lat extra ev).sliceMap = s.sliceMap := rfl
@[simp] theorem State.pend_engines (s : State) (c k lvl : Nat) (wr : Bool) (lat extra : Nat) (ev : Ev) : (s.pend c k lvl wr lat extra ev).engines = s.engines := rfl
@[simp] theorem State.pend_slots (s : State) (c k lvl : Nat) (wr : Bool) (lat extra : Nat) (ev : Ev) : (s.pend c k lvl wr lat extra ev).slots = s.slots := rfl
@[simp] theorem State.pend_netctr (s : State) (c k lvl : Nat) (wr : Bool) (lat extra : Nat) (ev : Ev) : (s.pend c k lvl wr lat extra ev).netctr = s.netctr := rfl
@[simp] theorem State.pend_lastPacket (s : State) (c k lvl : Nat) (wr : Bool) (lat extra : Nat) (ev : Ev) : (s.pend c k lvl wr lat extra ev).lastPacket = s.lastPacket := rfl
@[simp] theorem State.pend_ctl (s : State) (c k lvl : Nat) (wr : Bool) (lat extra : Nat) (ev : Ev) : (s.pend c k lvl wr lat extra ev).ctl = s.ctl := rfl
@[simp] theorem State.pend_out (s : State) (c k lvl : Nat) (wr : Bool) (lat extra : Nat) (ev : Ev) : (s.pend c k lvl wr lat extra ev).out = s.out := rfl

/-! ### State.lands -/

@[simp] theorem State.lands_clock (s : State) (c k f lat : Nat) (z y : Option LVal) (fl : BitVec 5) : (s.lands c k f lat z y fl).clock = s.clock := rfl
@[simp] theorem State.lands_count (s : State) (c k f lat : Nat) (z y : Option LVal) (fl : BitVec 5) : (s.lands c k f lat z y fl).count = s.count := rfl
@[simp] theorem State.lands_gs (s : State) (c k f lat : Nat) (z y : Option LVal) (fl : BitVec 5) : (s.lands c k f lat z y fl).gs = s.gs := rfl
@[simp] theorem State.lands_ports (s : State) (c k f lat : Nat) (z y : Option LVal) (fl : BitVec 5) : (s.lands c k f lat z y fl).ports = s.ports := rfl
@[simp] theorem State.lands_free (s : State) (c k f lat : Nat) (z y : Option LVal) (fl : BitVec 5) : (s.lands c k f lat z y fl).free =
    s.free + 1 := rfl
@[simp] theorem State.lands_turn (s : State) (c k f lat : Nat) (z y : Option LVal) (fl : BitVec 5) : (s.lands c k f lat z y fl).turn = s.turn := rfl
@[simp] theorem State.lands_cause (s : State) (c k f lat : Nat) (z y : Option LVal) (fl : BitVec 5) : (s.lands c k f lat z y fl).cause = s.cause := rfl
@[simp] theorem State.lands_inputs (s : State) (c k f lat : Nat) (z y : Option LVal) (fl : BitVec 5) : (s.lands c k f lat z y fl).inputs = s.inputs := rfl
@[simp] theorem State.lands_agenda (s : State) (c k f lat : Nat) (z y : Option LVal) (fl : BitVec 5) : (s.lands c k f lat z y fl).agenda =
    s.agenda ++ [⟨s.time (s.ctx c k).byClock + lat + 0, (s.ctx c k).byClock, c, k, 0, false, s.time (s.ctx c k).byClock + lat, s.free, (s.ctx c k).timed, .land f z y fl⟩] := rfl
@[simp] theorem State.lands_tried (s : State) (c k f lat : Nat) (z y : Option LVal) (fl : BitVec 5) : (s.lands c k f lat z y fl).tried = s.tried := rfl
@[simp] theorem State.lands_cores (s : State) (c k f lat : Nat) (z y : Option LVal) (fl : BitVec 5) : (s.lands c k f lat z y fl).cores = s.cores := rfl
@[simp] theorem State.lands_mem (s : State) (c k f lat : Nat) (z y : Option LVal) (fl : BitVec 5) : (s.lands c k f lat z y fl).mem = s.mem := rfl
@[simp] theorem State.lands_claims (s : State) (c k f lat : Nat) (z y : Option LVal) (fl : BitVec 5) : (s.lands c k f lat z y fl).claims = s.claims := rfl
@[simp] theorem State.lands_banks (s : State) (c k f lat : Nat) (z y : Option LVal) (fl : BitVec 5) : (s.lands c k f lat z y fl).banks = s.banks := rfl
@[simp] theorem State.lands_tables (s : State) (c k f lat : Nat) (z y : Option LVal) (fl : BitVec 5) : (s.lands c k f lat z y fl).tables = s.tables := rfl
@[simp] theorem State.lands_sliceMap (s : State) (c k f lat : Nat) (z y : Option LVal) (fl : BitVec 5) : (s.lands c k f lat z y fl).sliceMap = s.sliceMap := rfl
@[simp] theorem State.lands_engines (s : State) (c k f lat : Nat) (z y : Option LVal) (fl : BitVec 5) : (s.lands c k f lat z y fl).engines = s.engines := rfl
@[simp] theorem State.lands_slots (s : State) (c k f lat : Nat) (z y : Option LVal) (fl : BitVec 5) : (s.lands c k f lat z y fl).slots = s.slots := rfl
@[simp] theorem State.lands_netctr (s : State) (c k f lat : Nat) (z y : Option LVal) (fl : BitVec 5) : (s.lands c k f lat z y fl).netctr = s.netctr := rfl
@[simp] theorem State.lands_lastPacket (s : State) (c k f lat : Nat) (z y : Option LVal) (fl : BitVec 5) : (s.lands c k f lat z y fl).lastPacket = s.lastPacket := rfl
@[simp] theorem State.lands_ctl (s : State) (c k f lat : Nat) (z y : Option LVal) (fl : BitVec 5) : (s.lands c k f lat z y fl).ctl = s.ctl := rfl
@[simp] theorem State.lands_out (s : State) (c k f lat : Nat) (z y : Option LVal) (fl : BitVec 5) : (s.lands c k f lat z y fl).out = s.out := rfl

/-! ### State.requestHold -/

@[simp] theorem State.requestHold_clock (s : State) (cause : BitVec 3) (d : Option Nat) : (s.requestHold cause d).clock = s.clock := rfl
@[simp] theorem State.requestHold_count (s : State) (cause : BitVec 3) (d : Option Nat) : (s.requestHold cause d).count = s.count := rfl
@[simp] theorem State.requestHold_ports (s : State) (cause : BitVec 3) (d : Option Nat) : (s.requestHold cause d).ports = s.ports := rfl
@[simp] theorem State.requestHold_free (s : State) (cause : BitVec 3) (d : Option Nat) : (s.requestHold cause d).free = s.free := rfl
@[simp] theorem State.requestHold_turn (s : State) (cause : BitVec 3) (d : Option Nat) : (s.requestHold cause d).turn = s.turn := rfl
@[simp] theorem State.requestHold_cause (s : State) (cause : BitVec 3) (d : Option Nat) : (s.requestHold cause d).cause = s.cause := rfl
@[simp] theorem State.requestHold_inputs (s : State) (cause : BitVec 3) (d : Option Nat) : (s.requestHold cause d).inputs = s.inputs := rfl
@[simp] theorem State.requestHold_agenda (s : State) (cause : BitVec 3) (d : Option Nat) : (s.requestHold cause d).agenda = s.agenda := rfl
@[simp] theorem State.requestHold_tried (s : State) (cause : BitVec 3) (d : Option Nat) : (s.requestHold cause d).tried = s.tried := rfl
@[simp] theorem State.requestHold_cores (s : State) (cause : BitVec 3) (d : Option Nat) : (s.requestHold cause d).cores = s.cores := rfl
@[simp] theorem State.requestHold_mem (s : State) (cause : BitVec 3) (d : Option Nat) : (s.requestHold cause d).mem = s.mem := rfl
@[simp] theorem State.requestHold_claims (s : State) (cause : BitVec 3) (d : Option Nat) : (s.requestHold cause d).claims = s.claims := rfl
@[simp] theorem State.requestHold_banks (s : State) (cause : BitVec 3) (d : Option Nat) : (s.requestHold cause d).banks = s.banks := rfl
@[simp] theorem State.requestHold_tables (s : State) (cause : BitVec 3) (d : Option Nat) : (s.requestHold cause d).tables = s.tables := rfl
@[simp] theorem State.requestHold_sliceMap (s : State) (cause : BitVec 3) (d : Option Nat) : (s.requestHold cause d).sliceMap = s.sliceMap := rfl
@[simp] theorem State.requestHold_engines (s : State) (cause : BitVec 3) (d : Option Nat) : (s.requestHold cause d).engines = s.engines := rfl
@[simp] theorem State.requestHold_slots (s : State) (cause : BitVec 3) (d : Option Nat) : (s.requestHold cause d).slots = s.slots := rfl
@[simp] theorem State.requestHold_netctr (s : State) (cause : BitVec 3) (d : Option Nat) : (s.requestHold cause d).netctr = s.netctr := rfl
@[simp] theorem State.requestHold_lastPacket (s : State) (cause : BitVec 3) (d : Option Nat) : (s.requestHold cause d).lastPacket = s.lastPacket := rfl
@[simp] theorem State.requestHold_ctl (s : State) (cause : BitVec 3) (d : Option Nat) : (s.requestHold cause d).ctl = s.ctl := rfl
@[simp] theorem State.requestHold_out (s : State) (cause : BitVec 3) (d : Option Nat) : (s.requestHold cause d).out = s.out := rfl

/-! ### State.putCells -/

@[simp] theorem State.putCells_clock (s : State) (lvl core : Nat) (cells : List (Nat × Byte)) (pois : List (Nat × Bool)) : (s.putCells lvl core cells pois).clock = s.clock := rfl
@[simp] theorem State.putCells_count (s : State) (lvl core : Nat) (cells : List (Nat × Byte)) (pois : List (Nat × Bool)) : (s.putCells lvl core cells pois).count = s.count := rfl
@[simp] theorem State.putCells_gs (s : State) (lvl core : Nat) (cells : List (Nat × Byte)) (pois : List (Nat × Bool)) : (s.putCells lvl core cells pois).gs = s.gs := rfl
@[simp] theorem State.putCells_ports (s : State) (lvl core : Nat) (cells : List (Nat × Byte)) (pois : List (Nat × Bool)) : (s.putCells lvl core cells pois).ports = s.ports := rfl
@[simp] theorem State.putCells_free (s : State) (lvl core : Nat) (cells : List (Nat × Byte)) (pois : List (Nat × Bool)) : (s.putCells lvl core cells pois).free = s.free := rfl
@[simp] theorem State.putCells_turn (s : State) (lvl core : Nat) (cells : List (Nat × Byte)) (pois : List (Nat × Bool)) : (s.putCells lvl core cells pois).turn = s.turn := rfl
@[simp] theorem State.putCells_cause (s : State) (lvl core : Nat) (cells : List (Nat × Byte)) (pois : List (Nat × Bool)) : (s.putCells lvl core cells pois).cause = s.cause := rfl
@[simp] theorem State.putCells_inputs (s : State) (lvl core : Nat) (cells : List (Nat × Byte)) (pois : List (Nat × Bool)) : (s.putCells lvl core cells pois).inputs = s.inputs := rfl
@[simp] theorem State.putCells_agenda (s : State) (lvl core : Nat) (cells : List (Nat × Byte)) (pois : List (Nat × Bool)) : (s.putCells lvl core cells pois).agenda = s.agenda := rfl
@[simp] theorem State.putCells_tried (s : State) (lvl core : Nat) (cells : List (Nat × Byte)) (pois : List (Nat × Bool)) : (s.putCells lvl core cells pois).tried = s.tried := rfl
@[simp] theorem State.putCells_cores (s : State) (lvl core : Nat) (cells : List (Nat × Byte)) (pois : List (Nat × Bool)) : (s.putCells lvl core cells pois).cores = s.cores := rfl
@[simp] theorem State.putCells_claims (s : State) (lvl core : Nat) (cells : List (Nat × Byte)) (pois : List (Nat × Bool)) : (s.putCells lvl core cells pois).claims = s.claims := rfl
@[simp] theorem State.putCells_tables (s : State) (lvl core : Nat) (cells : List (Nat × Byte)) (pois : List (Nat × Bool)) : (s.putCells lvl core cells pois).tables = s.tables := rfl
@[simp] theorem State.putCells_sliceMap (s : State) (lvl core : Nat) (cells : List (Nat × Byte)) (pois : List (Nat × Bool)) : (s.putCells lvl core cells pois).sliceMap = s.sliceMap := rfl
@[simp] theorem State.putCells_engines (s : State) (lvl core : Nat) (cells : List (Nat × Byte)) (pois : List (Nat × Bool)) : (s.putCells lvl core cells pois).engines = s.engines := rfl
@[simp] theorem State.putCells_slots (s : State) (lvl core : Nat) (cells : List (Nat × Byte)) (pois : List (Nat × Bool)) : (s.putCells lvl core cells pois).slots = s.slots := rfl
@[simp] theorem State.putCells_netctr (s : State) (lvl core : Nat) (cells : List (Nat × Byte)) (pois : List (Nat × Bool)) : (s.putCells lvl core cells pois).netctr = s.netctr := rfl
@[simp] theorem State.putCells_lastPacket (s : State) (lvl core : Nat) (cells : List (Nat × Byte)) (pois : List (Nat × Bool)) : (s.putCells lvl core cells pois).lastPacket = s.lastPacket := rfl
@[simp] theorem State.putCells_ctl (s : State) (lvl core : Nat) (cells : List (Nat × Byte)) (pois : List (Nat × Bool)) : (s.putCells lvl core cells pois).ctl = s.ctl := rfl
@[simp] theorem State.putCells_out (s : State) (lvl core : Nat) (cells : List (Nat × Byte)) (pois : List (Nat × Bool)) : (s.putCells lvl core cells pois).out = s.out := rfl

/-! ### State.issued -/

@[simp] theorem State.issued_clock (s : State) (t : State) (c k : Nat) (w : BitVec 256) (us : List Nat) (b : Bool) (f : Flow) : (s.issued t c k w us b f).clock = s.clock := rfl
@[simp] theorem State.issued_count (s : State) (t : State) (c k : Nat) (w : BitVec 256) (us : List Nat) (b : Bool) (f : Flow) : (s.issued t c k w us b f).count = s.count := rfl
@[simp] theorem State.issued_gs (s : State) (t : State) (c k : Nat) (w : BitVec 256) (us : List Nat) (b : Bool) (f : Flow) : (s.issued t c k w us b f).gs =
    t.gs := rfl
@[simp] theorem State.issued_ports (s : State) (t : State) (c k : Nat) (w : BitVec 256) (us : List Nat) (b : Bool) (f : Flow) : (s.issued t c k w us b f).ports =
    t.ports := rfl
@[simp] theorem State.issued_free (s : State) (t : State) (c k : Nat) (w : BitVec 256) (us : List Nat) (b : Bool) (f : Flow) : (s.issued t c k w us b f).free =
    t.free := rfl
@[simp] theorem State.issued_turn (s : State) (t : State) (c k : Nat) (w : BitVec 256) (us : List Nat) (b : Bool) (f : Flow) : (s.issued t c k w us b f).turn =
    .idle := rfl
@[simp] theorem State.issued_cause (s : State) (t : State) (c k : Nat) (w : BitVec 256) (us : List Nat) (b : Bool) (f : Flow) : (s.issued t c k w us b f).cause = s.cause := rfl
@[simp] theorem State.issued_inputs (s : State) (t : State) (c k : Nat) (w : BitVec 256) (us : List Nat) (b : Bool) (f : Flow) : (s.issued t c k w us b f).inputs = s.inputs := rfl
@[simp] theorem State.issued_agenda (s : State) (t : State) (c k : Nat) (w : BitVec 256) (us : List Nat) (b : Bool) (f : Flow) : (s.issued t c k w us b f).agenda =
    s.agenda ++ newOps s.agenda.length t.free t.agenda := rfl
@[simp] theorem State.issued_tried (s : State) (t : State) (c k : Nat) (w : BitVec 256) (us : List Nat) (b : Bool) (f : Flow) : (s.issued t c k w us b f).tried =
    (c, k) :: s.tried := rfl
@[simp] theorem State.issued_mem (s : State) (t : State) (c k : Nat) (w : BitVec 256) (us : List Nat) (b : Bool) (f : Flow) : (s.issued t c k w us b f).mem = s.mem := rfl
@[simp] theorem State.issued_claims (s : State) (t : State) (c k : Nat) (w : BitVec 256) (us : List Nat) (b : Bool) (f : Flow) : (s.issued t c k w us b f).claims =
    t.claims := rfl
@[simp] theorem State.issued_banks (s : State) (t : State) (c k : Nat) (w : BitVec 256) (us : List Nat) (b : Bool) (f : Flow) : (s.issued t c k w us b f).banks =
    t.banks := rfl
@[simp] theorem State.issued_tables (s : State) (t : State) (c k : Nat) (w : BitVec 256) (us : List Nat) (b : Bool) (f : Flow) : (s.issued t c k w us b f).tables = s.tables := rfl
@[simp] theorem State.issued_sliceMap (s : State) (t : State) (c k : Nat) (w : BitVec 256) (us : List Nat) (b : Bool) (f : Flow) : (s.issued t c k w us b f).sliceMap = s.sliceMap := rfl
@[simp] theorem State.issued_engines (s : State) (t : State) (c k : Nat) (w : BitVec 256) (us : List Nat) (b : Bool) (f : Flow) : (s.issued t c k w us b f).engines = s.engines := rfl
@[simp] theorem State.issued_slots (s : State) (t : State) (c k : Nat) (w : BitVec 256) (us : List Nat) (b : Bool) (f : Flow) : (s.issued t c k w us b f).slots = s.slots := rfl
@[simp] theorem State.issued_netctr (s : State) (t : State) (c k : Nat) (w : BitVec 256) (us : List Nat) (b : Bool) (f : Flow) : (s.issued t c k w us b f).netctr = s.netctr := rfl
@[simp] theorem State.issued_lastPacket (s : State) (t : State) (c k : Nat) (w : BitVec 256) (us : List Nat) (b : Bool) (f : Flow) : (s.issued t c k w us b f).lastPacket = s.lastPacket := rfl
@[simp] theorem State.issued_ctl (s : State) (t : State) (c k : Nat) (w : BitVec 256) (us : List Nat) (b : Bool) (f : Flow) : (s.issued t c k w us b f).ctl =
    { s.ctl with launches := t.ctl.launches } := rfl
@[simp] theorem State.issued_out (s : State) (t : State) (c k : Nat) (w : BitVec 256) (us : List Nat) (b : Bool) (f : Flow) : (s.issued t c k w us b f).out = s.out := rfl

/-! ### Cores and contexts -/

@[simp] theorem State.core_setCore (s : State) (c : Nat) (x : Core) : (s.setCore c x).core c = x := by
  simp [State.core, State.setCore]

theorem State.core_setCore_other (s : State) (c d : Nat) (x : Core) (h : d ≠ c) : (s.setCore c x).core d = s.core d := by
  simp [State.core, State.setCore, mget_mput_other _ _ _ _ _ h]

@[simp] theorem Core.ctx_setCtx (x : Core) (k : Nat) (y : Ctx) : (x.setCtx k y).ctx k = y := by
  simp [Core.ctx, Core.setCtx]

theorem Core.ctx_setCtx_other (x : Core) (k j : Nat) (y : Ctx) (h : j ≠ k) : (x.setCtx k y).ctx j = x.ctx j := by
  simp [Core.ctx, Core.setCtx, mget_mput_other _ _ _ _ _ h]

@[simp] theorem Core.setCtx_setCtx (x : Core) (k : Nat) (y z : Ctx) : (x.setCtx k y).setCtx k z = x.setCtx k z := by
  simp [Core.setCtx]

@[simp] theorem State.core_setCtx (s : State) (c k : Nat) (y : Ctx) : (s.setCtx c k y).core c = (s.core c).setCtx k y := by
  simp [State.setCtx]

@[simp] theorem State.ctx_setCtx (s : State) (c k : Nat) (y : Ctx) : (s.setCtx c k y).ctx c k = y := by
  simp [State.ctx]

@[simp] theorem State.setCore_setCore (s : State) (c : Nat) (x z : Core) : (s.setCore c x).setCore c z = s.setCore c z := by
  simp [State.setCore]

@[simp] theorem State.setCtx_setCtx (s : State) (c k : Nat) (y z : Ctx) : (s.setCtx c k y).setCtx c k z = s.setCtx c k z := by
  simp [State.setCtx]

@[simp] theorem State.core_pend (s : State) (c k lvl : Nat) (wr : Bool) (lat extra : Nat) (ev : Ev) (d : Nat) :
    (s.pend c k lvl wr lat extra ev).core d = s.core d := rfl

@[simp] theorem State.ctx_pend (s : State) (c k lvl : Nat) (wr : Bool) (lat extra : Nat) (ev : Ev) (d j : Nat) :
    (s.pend c k lvl wr lat extra ev).ctx d j = s.ctx d j := rfl

@[simp] theorem State.core_post (s : State) (due : Nat) (oc : Bool) (c k : Nat) (ev : Ev) (d : Nat) :
    (s.post due oc c k ev).core d = s.core d := rfl

@[simp] theorem State.core_lands (s : State) (c k f lat : Nat) (z y : Option LVal) (fl : BitVec 5) (d : Nat) :
    (s.lands c k f lat z y fl).core d = s.core d := rfl

@[simp] theorem State.ctx_lands (s : State) (c k f lat : Nat) (z y : Option LVal) (fl : BitVec 5) (d j : Nat) :
    (s.lands c k f lat z y fl).ctx d j = s.ctx d j := rfl

/-- The fields of `chose` that an issue leaves alone. -/
theorem Core.chose_ctxs (x : Core) (k : Nat) (t y : Bool) (w : BitVec 256) (us : List Nat) (b : Bool) : (x.chose k t y w us b).ctxs = x.ctxs := by
  simp only [Core.chose]; split
  · split <;> rfl
  · rfl

/-- The context after a committed bundle is the one that `stepped` gives. -/
theorem State.ctx_issued (s t : State) (c k : Nat) (w : BitVec 256) (us : List Nat) (b : Bool) (f : Flow) :
    (s.issued t c k w us b f).ctx c k = (t.ctx c k).stepped (s.ctx c k).pc f := by
  simp only [State.ctx, State.issued, State.core, mget_mput_self]
  simp only [Core.ctx, Core.chose_ctxs]
  simp [Core.setCtx]

/-- Other cores are as before a committed bundle. -/
theorem State.core_issued_other (s t : State) (c k : Nat) (w : BitVec 256) (us : List Nat) (b : Bool) (f : Flow) (d : Nat) (h : d ≠ c) :
    (s.issued t c k w us b f).core d = s.core d := by
  simp [State.core, State.issued, mget_mput_other _ _ _ _ _ h]

end Sys2Proof.Machine
end

