-- ==== Sys2Proof/Laws/Issue.lean ====
section
/-! SUPPORT. What the issue of a bundle with one slot does, said once: an operation, a control operation, a beat, or a slot whose guard
reads false. -/

namespace Sys2Proof.Machine

/-- The slot that a lone move takes (R21, R22). -/
def slotOf (d : BitVec 10) : Nat := if busOf d then 0 else 4

/-- The value that a trigger receives. -/
def State.operand (st : State) (c k : Nat) (s d : BitVec 10) : LVal :=
  (st.env c k 0).source (trigClass ((d.toNat - 0x200) / 16)) s

theorem State.actor_eq {st : State} {c k : Nat} (h : st.turn = .ctx c k) : st.actor = (c, k) := by
  simp [State.actor, h]

/-- The bursts of a lone move (R86). -/
def State.loneBursts (st : State) (c k : Nat) (s d : BitVec 10) : List (Nat × Bool × Nat) :=
  if 0x200 ≤ d.toNat ∧ (trigUnit d = 6 ∨ trigUnit d = 7) ∧ (d.toNat % 16 = 9 ∨ d.toNat % 16 = 10) then
    [(trigUnit d, d.toNat % 16 == 10, (burstRun (trigUnit d) { st.env c k 0 with dsts := [d] } (st.operand c k s d)).2)]
  else []

/-- The obase and olimit that a lone sbase sets (R88). -/
def State.loneSbase (st : State) (c k : Nat) (s d : BitVec 10) : Option (BitVec 64 × BitVec 32) :=
  if d = 0x355#10 then some (({ st.env c k 0 with dsts := [d] } : Env).sbaseOf (st.operand c k s d)) else none

/-- The environment in which the operation of a lone move acts, from slot `n`. -/
def State.lone (st : State) (c k n : Nat) (s d : BitVec 10) : Env :=
  { st.env c k n with dsts := [d], bursts := st.loneBursts c k s d, sbase := st.loneSbase c k s d }

/-- A move whose operation is no burst acts without one. -/
theorem loneBursts_nil (st : State) (c k : Nat) (s d : BitVec 10) (h : trigUnit d ≠ 6 ∧ trigUnit d ≠ 7) :
    st.loneBursts c k s d = [] := by
  simp [State.loneBursts, h.1, h.2]

/-- A bundle without a burst or an sbase stops no burst. -/
theorem Env.breaksBurst_nil (e : Env) (hb : e.bursts = []) (hs : e.sbase = none) : e.breaksBurst = false := by
  simp [Env.breaksBurst, hb, hs]

/-- A bundle without an access takes no room of a burst. -/
theorem Env.crowds_nil (e : Env) : e.crowds [] = false := by
  simp [Env.crowds]

/-- A bundle no slot of which does anything stops no burst. -/
theorem moved_breaks (e : Env) (b : Bundle) (h : e.enabled b = []) : (e.moved b).breaksBurst = false :=
  Env.breaksBurst_nil _ (by simp [Env.moved, h]) (by simp [Env.moved, h])

/-- A lone move whose operation is neither a burst nor sbase stops none. -/
theorem lone_breaks (st : State) (c k n : Nat) (s d : BitVec 10) (h : trigUnit d ≠ 6 ∧ trigUnit d ≠ 7) (hd : d ≠ 0x355#10) :
    (st.lone c k n s d).breaksBurst = false :=
  Env.breaksBurst_nil _ (loneBursts_nil st c k s d h) (by simp [State.lone, State.loneSbase, hd])

/-- The buses read nothing of an environment that the bundle's own moves write, nor of its slot. -/
theorem Env.scalar_rest (e : Env) (r : Regs) (m : Nat) (bs : List (Nat × Bool × Nat)) (ds : List (BitVec 10))
    (sb : Option (BitVec 64 × BitVec 32)) (n : BitVec 10) :
    ({ e with r := r, slot := m, bursts := bs, dsts := ds, sbase := sb } : Env).scalar n = e.scalar n := by
  have h : ({ e with r := r, slot := m, bursts := bs, dsts := ds, sbase := sb } : Env).tainted n = e.tainted n := rfl
  simp only [Env.scalar, h]
theorem Env.vector_rest (e : Env) (r : Regs) (m : Nat) (bs : List (Nat × Bool × Nat)) (ds : List (BitVec 10))
    (sb : Option (BitVec 64 × BitVec 32)) (n : BitVec 10) :
    ({ e with r := r, slot := m, bursts := bs, dsts := ds, sbase := sb } : Env).vector n = e.vector n := by
  have h : ({ e with r := r, slot := m, bursts := bs, dsts := ds, sbase := sb } : Env).tainted n = e.tainted n := rfl
  unfold Env.vector
  rw [h, Env.scalar_rest]

/-- The buses of a lone move are those of its bundle. -/
theorem lone_scalar (st : State) (c k m : Nat) (s d n : BitVec 10) : (st.lone c k m s d).scalar n = (st.env c k 0).scalar n :=
  Env.scalar_rest (st.env c k 0) (st.ctx c k).regs m (st.loneBursts c k s d) [d] (st.loneSbase c k s d) n
theorem lone_vector (st : State) (c k m : Nat) (s d n : BitVec 10) : (st.lone c k m s d).vector n = (st.env c k 0).vector n :=
  Env.vector_rest (st.env c k 0) (st.ctx c k).regs m (st.loneBursts c k s d) [d] (st.loneSbase c k s d) n

theorem bundleEnv_eq (st : State) (c k : Nat) (b : Bundle) (hc : b.ck = false) (hl : b.limm = 0) :
    bundleEnv st c k b = st.env c k 0 := by
  simp [bundleEnv, State.env, hc, hl]

theorem preTrap_none {st : State} {c k : Nat} (b : Bundle) (hi : st.Issues c k) (hb : b.bad = 0) :
    (st.env c k 0).preTrap b = none := by
  obtain ⟨-, -, h3, -, h5, -, -, -⟩ := hi
  simp only [Env.preTrap, State.env, h3, h5, hb, ne_eq, not_true, if_false, Bool.false_eq_true]

theorem dueTrap_none {st : State} {c k : Nat} (hi : st.Issues c k) : (st.env c k 0).dueTrap = none := by
  simp [Env.dueTrap, State.env, hi.2.2.2.1]

theorem Ctx.dropLoops_regBad (y : Ctx) : y.dropLoops.regBad = y.regBad := by
  unfold Ctx.dropLoops
  split <;> rfl

theorem afterFlow_region (y : Ctx) (pc : BitVec 13) (f : Flow) : (afterFlow y pc f none).region = y.region := rfl

theorem afterFlow_regBad (y : Ctx) (pc : BitVec 13) (f : Flow) : (afterFlow y pc f none).regBad = y.regBad := rfl

theorem Ctx.charged_regBad (y : Ctx) : y.charged.regBad = y.regBad := rfl

/-- A bundle that commits by its fall or by its flow, with no region open and no return from a trap. -/
theorem commits_eq {st : State} {c k : Nat} (b : Bundle) (s1 : State) (f : Flow) (hi : st.Issues c k)
    (hregion : (s1.ctx c k).region.isOpen = false) (hbad : (s1.ctx c k).regBad = [])
    (hret : (st.env c k 0).returns b = none)
    (hctl : ∀ x, (st.env c k 0).ctl b = some x → x.soft = none) :
    (st.env c k 0).commits b s1 f = st.issued s1 c k b.word ((st.env c k 0).units b) ((st.env c k 0).carrel b) f := by
  have hfin : (st.env c k 0).finish b s1 f = (s1.ctx c k).stepped (st.ctx c k).pc f := by
    have h1 : (afterFlow (s1.ctx c k) (st.ctx c k).pc f none).region.isOpen = false := hregion
    have h3 : ((afterFlow (s1.ctx c k) (st.ctx c k).pc f none).charged.dropLoops).regBad = [] := by
      rw [Ctx.dropLoops_regBad]; exact hbad
    simp only [Env.finish, hret]
    simp only [State.env, Env.sign, h1, Env.mend, Bool.not_false, if_true, h3, List.isEmpty_nil]
    rfl
  have hopen : (st.ctx c k).region.isOpen = false := hi.2.2.2.2.2.2.1
  have key : (commit st c ((s1.setCtx c k ((s1.ctx c k).stepped (st.ctx c k).pc f)).setCore c
      (((s1.setCtx c k ((s1.ctx c k).stepped (st.ctx c k).pc f)).core c).chose k (st.ctx c k).timed
        (decide (((s1.setCtx c k ((s1.ctx c k).stepped (st.ctx c k).pc f)).ctx c k).yieldFor = st.clock + 1)) b.word
        ((st.env c k 0).units b) ((st.env c k 0).carrel b)))).spent c k =
      st.issued s1 c k b.word ((st.env c k 0).units b) ((st.env c k 0).carrel b) f := by
    simp [commit, State.spent, State.issued]
  simp only [Env.commits, hfin]
  change (match (st.env c k 0).ctl b with | some x => _ | none => _) = _
  simp only [State.env] at key hctl ⊢
  split
  · rename_i x hx
    have hs := hctl x (by simpa using hx)
    simp only [hopen, Bool.and_false, hs]
    simpa using key
  · simpa using key

theorem act_unfold (e : Env) (b : Bundle) (h : e.y.regBad = []) : e.act b =
    Except.bind ((e.moved b).regionCheck b) fun _ =>
      Except.bind ((e.moved b).step4 (e.enabled b) (e.s.setCtx e.c e.k { e.y with regs := e.step3 (e.enabled b) })) fun s =>
        (e.moved b).step5 b s := by
  have hg : (e.moved b).guardBad b = none := by
    have : (e.moved b).y.regBad = [] := h
    simp [Env.guardBad, this]
  unfold Env.act
  simp only [hg]
  rfl

/-- Steps 3 to 5 of a bundle without a region; `e` is its environment after its moves, and `s0` the state with their registers. -/
theorem act_eq {st s0 s1 s2 : State} {c k : Nat} {f : Flow} (b : Bundle) (e : Env) (hi : st.Issues c k) (hck : b.ck = false)
    (hm : (st.env c k 0).moved b = e)
    (h3 : st.setCtx c k { st.ctx c k with regs := (st.env c k 0).step3 ((st.env c k 0).enabled b) } = s0)
    (h4 : e.step4 ((st.env c k 0).enabled b) s0 = .ok s1)
    (h5 : e.step5 b s1 = .ok (s2, f)) : (st.env c k 0).act b = .ok (s2, f) := by
  obtain ⟨-, -, -, -, -, h6, h7, -⟩ := hi
  have e1 : e.regionCheck b = .ok () := by
    rw [← hm]
    simp only [Env.regionCheck, Env.moved, State.env, hck, h7, Bool.false_and, trapIf]
    rfl
  rw [act_unfold _ _ h6, hm, e1]
  change Except.bind (e.step4 ((st.env c k 0).enabled b)
    (st.setCtx c k { st.ctx c k with regs := (st.env c k 0).step3 ((st.env c k 0).enabled b) })) (fun s => e.step5 b s) = _
  rw [h3, h4]
  exact h5

/-- THE ISSUE OF A LONE OPERATION: when its bundle waits for nothing and its checks pass, it acts and commits. -/
theorem issue_op {st s1 : State} {c k : Nat} (g : BitVec 4) (s d : BitVec 10) (o : Op) (hi : st.Issues c k)
    (hbad : (bundleOfOp g s d (some o)).bad = 0) (hd : 0x200 ≤ d.toNat)
    (hg : (st.ctx c k).regs.rdQ g.toNat = true)
    (hret : d = 0x350#10 → (st.ctx c k).record.valid = true → returnOf (st.operand c k s d).sval.val = none)
    (hport : d = 0x329#10 ∨ d = 0x32A#10 → (st.ctx c k).timed = true)
    (hmx : 0x340 ≤ d.toNat → d.toNat < 0x350 → st.regionBeside c k = false)
    (hburst : st.bursting c k [trigUnit d] = false) (hbreaks : (st.lone c k 0 s d).breaksBurst = false)
    (hmark : busOf d = false → (st.vsrc c k s).mark = false)
    (hclear : (st.env c k 0).Clear (o.acc (st.lone c k 0 s d) (st.operand c k s d)))
    (hhold : o.hold (st.lone c k (slotOf d) s d) (st.operand c k s d) st = none)
    (hrun : o.run (st.lone c k (slotOf d) s d) (st.operand c k s d) st = .ok s1)
    (hregion : (s1.ctx c k).region.isOpen = false) (hreg : (s1.ctx c k).regBad = []) :
    issue (bundleOfOp g s d (some o)) st =
      st.issued s1 c k (moveBundle g s d) [trigUnit d] (holdsCarrel (o.acc (st.lone c k 0 s d) (st.operand c k s d))) .fall := by
  obtain ⟨ht, hl, h3, h4, h5, h6, h7, h8⟩ := hi
  have hi : st.Issues c k := ⟨ht, hl, h3, h4, h5, h6, h7, h8⟩
  have hen : (st.env c k 0).enabled (bundleOfOp g s d (some o)) = [⟨slotOf d, g, s, d, some o⟩] := by
    simp [Env.enabled, bundleOfOp, State.env, hg, slotOf]
  have hbe : (st.env c k 0).beat (bundleOfOp g s d (some o)) = none := rfl
  have hct : (st.env c k 0).ctl (bundleOfOp g s d (some o)) = none := rfl
  have hw : (st.env c k 0).step3 [⟨slotOf d, g, s, d, some o⟩] = (st.ctx c k).regs := by
    simp only [Env.step3, List.foldl_cons, List.foldl_nil, Env.writeMove]
    have a1 : ¬ d.toNat < 0x40 := by omega
    have a2 : ¬ d.toNat < 0x80 := by omega
    have a3 : ¬ d.toNat < 0xC0 := by omega
    have a4 : ¬ d.toNat < 0x100 := by omega
    have a5 : ¬ d.toNat < 0x200 := by omega
    simp only [a1, a2, a3, a4, a5, if_false]
    rfl
  have hmv : (st.env c k 0).moved (bundleOfOp g s d (some o)) = st.lone c k 0 s d := by
    simp only [Env.moved, hen, hw, State.lone, State.loneBursts, State.loneSbase, List.map_cons, List.map_nil, List.filterMap_cons,
      List.filterMap_nil, List.find?_cons, List.find?_nil]
    by_cases hx : d = 0x355#10
    · subst hx
      have hn : ¬(0x200 ≤ (0x355#10).toNat ∧ (trigUnit 0x355#10 = 6 ∨ trigUnit 0x355#10 = 7) ∧
        ((0x355#10).toNat % 16 = 9 ∨ (0x355#10).toNat % 16 = 10)) := by decide
      simp only [hn, if_false, beq_self_eq_true, if_true]
      rfl
    · have hx' : (d == 0x355#10) = false := by simpa using hx
      simp only [hx, hx', if_false]
      split_ifs <;> rfl
  have hunits : (st.env c k 0).units (bundleOfOp g s d (some o)) = [trigUnit d] := by
    have a5 : ¬ d.toNat < 0x200 := by omega
    simp [Env.units, hen, a5]
  have hacc : (st.env c k 0).accesses (bundleOfOp g s d (some o)) = o.acc (st.lone c k 0 s d) (st.operand c k s d) := by
    simp [Env.accesses, hen, hbe, hmv, Env.operand, State.operand]
  have hheld : (st.env c k 0).held (bundleOfOp g s d (some o)) = none := by
    have hm : ((((st.env c k 0).enabled (bundleOfOp g s d (some o))).any
        (fun m => decide (m.dst.toNat ≥ 0x340 ∧ m.dst.toNat < 0x350)) ||
          ((st.env c k 0).beat (bundleOfOp g s d (some o))).isSome) && st.regionBeside c k) = false := by
      rw [hen, hbe]
      by_cases h : 0x340 ≤ d.toNat ∧ d.toNat < 0x350
      · simp [hmx h.1 h.2]
      · simp only [List.any_cons, List.any_nil, Bool.or_false, Option.isSome_none, ge_iff_le, h, decide_false, Bool.false_and]
    obtain ⟨c1, c2, c3, c4⟩ := hclear
    have hck : (bundleOfOp g s d (some o)).ck = false := rfl
    simp only [Env.held, hacc, hunits, hmv, hbreaks]
    simp only [c1, c2, c3, c4, hct]
    simp only [State.env] at hm hmv ⊢
    simp only [h8, hck, hm, hburst]
    simp only [State.env] at hen
    simp only [hen]
    simp [Env.operand, State.operand, State.env] at hhold ⊢
    exact hhold
  have hill : (st.env c k 0).illegalNow (bundleOfOp g s d (some o)) = 0 := by
    have hp : ((d == 0x329#10 || d == 0x32A#10) && !(st.ctx c k).timed) = false := by
      by_cases h : d = 0x329#10 ∨ d = 0x32A#10
      · simp [hport h]
      · simp only [not_or] at h
        simp [h.1, h.2]
    have hms : (bundleOfOp g s d (some o)).mvs = [⟨slotOf d, g, s, d, some o⟩] := rfl
    simp only [Env.illegalNow, hms, hbe, hct, List.foldl_cons, List.foldl_nil]
    simp only [State.env, hp]
    simp [setBit]
  have hrets : (st.env c k 0).returns (bundleOfOp g s d (some o)) = none := by
    simp only [Env.returns, hen]
    by_cases hv : (st.ctx c k).record.valid = true
    · by_cases h : d = 0x350#10
      · have hq := hret h hv
        simp only [State.env, hv, Bool.not_true, Bool.false_eq_true, if_false, List.find?_cons, h, beq_self_eq_true]
        subst h
        exact hq
      · simp [State.env, h]
    · simp [State.env, hv]
  have hact : (st.env c k 0).act (bundleOfOp g s d (some o)) = .ok (s1, .fall) := by
    have hs : st.setCtx c k { st.ctx c k with regs := (st.ctx c k).regs } = st := hl
    have hmove : (st.lone c k 0 s d).moveCheck ⟨slotOf d, g, s, d, some o⟩ = .ok () := by
      have a1 : ¬ (0x80 ≤ d.toNat ∧ d.toNat < 0xC0) := by omega
      have a2 : ¬ (0xC0 ≤ d.toNat ∧ d.toNat < 0x100) := by omega
      have hmk : (st.lone c k 0 s d).markCheck ⟨slotOf d, g, s, d, some o⟩ = .ok () := by
        have hv : (st.lone c k 0 s d).vector s = st.vsrc c k s := lone_vector ..
        by_cases hb : busOf d
        · simp [Env.markCheck, trapIf, hb]
        · simp [Env.markCheck, trapIf, hv, hmark (by simpa using hb)]
      have hre : (st.lone c k 0 s d).regError s = .ok () := by
        simp [Env.regError, State.lone, State.env, h6]
      have hop : (st.lone c k 0 s d).y.region.isOpen = false := h7
      simp only [Env.moveCheck, hre, hmk, hop, bind, Except.bind, Bool.false_and, trapIf, Bool.false_eq_true, if_false, a1, a2]
    have hports : (st.lone c k 0 s d).portsCheck ⟨slotOf d, g, s, d, some o⟩ = .ok () := by
      simp [Env.portsCheck, State.lone, State.env, h6]
    have hslot : (st.lone c k 0 s d).runSlot ⟨slotOf d, g, s, d, some o⟩ st = .ok s1 := by
      have ho : (st.lone c k 0 s d).operand ⟨slotOf d, g, s, d, some o⟩ = st.operand c k s d := by
        simp only [Env.operand, State.operand, Env.source, lone_scalar, lone_vector]
      simp only [Env.runSlot, hmove, hports, bind, Except.bind, ho]
      exact hrun
    have h4 : (st.lone c k 0 s d).step4 [⟨slotOf d, g, s, d, some o⟩] st = .ok s1 := by
      have hr : (st.lone c k 0 s d).runSlots [⟨slotOf d, g, s, d, some o⟩] st = .ok s1 := by
        simp [Env.runSlots, hslot, bind, Except.bind, pure, Except.pure]
      simp only [Env.step4, hr]
      simpa [unitOrder, insertMv] using hr
    have h5' : (st.lone c k 0 s d).step5 (bundleOfOp g s d (some o)) s1 = .ok (s1, .fall) := by
      unfold Env.step5
      change Except.bind (Except.ok s1) (fun s => Except.ok (s, Flow.fall)) = _
      rfl
    exact act_eq (s0 := st) _ _ hi rfl hmv (by rw [hen, hw]; exact hs) (by rw [hen]; exact h4) h5'
  have hact' := bundleEnv_eq st c k (bundleOfOp g s d (some o)) rfl rfl
  simp only [issue, State.actor_eq ht, hact', preTrap_none _ hi hbad, dueTrap_none hi, hheld, hill, hact]
  simp only [ne_eq, not_true, if_false]
  rw [commits_eq _ s1 .fall hi hregion hreg hrets (by simp [hct])]
  rw [Env.carrel, hacc, hunits]
  rfl

/-- Moves that are no transfers, or a timed context's, set no bit of the mask. -/
theorem foldl_legal (ms : List Mv) (timed : Bool) (h : timed = true ∨ ∀ x ∈ ms, x.dst ≠ 0x329#10 ∧ x.dst ≠ 0x32A#10) :
    ms.foldl (fun (m : BitVec 11) x => setBit m x.slot ((x.dst == 0x329#10 || x.dst == 0x32A#10) && !timed)) 0 = 0 := by
  induction ms with
  | nil => rfl
  | cons x t ih =>
    have hx : ((x.dst == 0x329#10 || x.dst == 0x32A#10) && !timed) = false := by
      rcases h with h | h
      · simp [h]
      · simp [(h x List.mem_cons_self).1, (h x List.mem_cons_self).2]
    rw [List.foldl_cons, hx]
    have h0 : setBit (0 : BitVec 11) x.slot false = 0 := by simp [setBit]
    rw [h0]
    exact ih (h.imp_right fun h y hy => h y (List.mem_cons_of_mem _ hy))

theorem step4_nil (e : Env) (s : State) : e.step4 [] s = .ok s := rfl

/-- THE ISSUE OF A BUNDLE NO SLOT OF WHICH DOES ANYTHING, the guards being false (R31). -/
theorem issue_idle {st : State} {c k : Nat} (b : Bundle) (hi : st.Issues c k) (hbad : b.bad = 0) (hck : b.ck = false)
    (hlimm : b.limm = 0) (hm : (st.env c k 0).enabled b = []) (hbe : (st.env c k 0).beat b = none)
    (hct : (st.env c k 0).ctl b = none) (hport : (st.ctx c k).timed = true ∨ ∀ x ∈ b.mvs, x.dst ≠ 0x329#10 ∧ x.dst ≠ 0x32A#10) :
    issue b st = st.issued st c k b.word [] false .fall := by
  obtain ⟨ht, hl, h3, h4, h5, h6, h7, h8⟩ := hi
  have hi : st.Issues c k := ⟨ht, hl, h3, h4, h5, h6, h7, h8⟩
  have hacc : (st.env c k 0).accesses b = [] := by simp [Env.accesses, hm, hbe]
  have hunits : (st.env c k 0).units b = [] := by simp [Env.units, hm]
  have hmv : (st.env c k 0).moved b = st.env c k 0 := by
    simp only [Env.moved, hm]
    rfl
  have hheld : (st.env c k 0).held b = none := by
    have hbr := moved_breaks _ b hm
    simp only [Env.held, hacc, hct, hm, hbe, hunits, hbr]
    simp only [State.bursting, Env.underOwn, Env.behindOwn, Env.crowds_nil, Env.missing, Env.asleep, List.any_nil, List.flatMap_nil, List.findSome?_nil, Option.filter_none,
      Bool.and_false, Bool.or_false, Bool.false_and, ite_self, hck, Bool.false_eq_true, if_false, Option.isSome_none]
    change (if st.late c k = true then some st else none) = none
    rw [h8]
    rfl
  have hill : (st.env c k 0).illegalNow b = 0 := by
    simp only [Env.illegalNow, hbe, hct, foldl_legal b.mvs (st.env c k 0).y.timed hport]
    simp [setBit]
  have hrets : (st.env c k 0).returns b = none := by simp [Env.returns, hm]
  have hact : (st.env c k 0).act b = .ok (st, .fall) := by
    have h5' : (st.env c k 0).step5 b st = .ok (st, .fall) := by
      unfold Env.step5
      rw [hbe, hct]
      rfl
    exact act_eq (s0 := st) _ _ hi hck hmv (by rw [hm]; exact hl) (by rw [hm]; rfl) h5'
  have he := bundleEnv_eq st c k b hck hlimm
  simp only [issue, State.actor_eq ht, he, preTrap_none _ hi hbad, dueTrap_none hi, hheld, hill, hact]
  simp only [ne_eq, not_true, if_false]
  rw [commits_eq _ st .fall hi h7 h6 hrets (by simp [hct])]
  rw [Env.carrel, hacc, hunits]
  rfl

/-- THE ISSUE OF A LONE MOVE to a register or an operand port (R27). -/
theorem issue_move {st : State} {c k : Nat} (g : BitVec 4) (s d : BitVec 10) (hi : st.Issues c k)
    (hbad : (bundleOfOp g s d none).bad = 0) (hd : d.toNat < 0x200) (hg : (st.ctx c k).regs.rdQ g.toNat = true)
    (hmark : busOf d = false → (st.vsrc c k s).mark = false ∨ 0x40 ≤ d.toNat ∧ d.toNat < 0x80 ∧ 0x100 ≤ s.toNat)
    (hclean : 0x80 ≤ d.toNat → d.toNat < 0x100 → checkUses [if d.toNat < 0xC0 then useS (st.src c k s) 7 else useAny (st.vsrc c k s) 7]
      = .ok ()) :
    issue (bundleOfOp g s d none) st =
      st.issued (st.setRegs c k ((st.env c k 0).writeMove (st.ctx c k).regs ⟨slotOf d, g, s, d, none⟩)) c k (moveBundle g s d)
        [] false .fall := by
  obtain ⟨ht, hl, h3, h4, h5, h6, h7, h8⟩ := hi
  have hi : st.Issues c k := ⟨ht, hl, h3, h4, h5, h6, h7, h8⟩
  have hen : (st.env c k 0).enabled (bundleOfOp g s d none) = [⟨slotOf d, g, s, d, none⟩] := by
    simp [Env.enabled, bundleOfOp, State.env, hg, slotOf]
  have hbe : (st.env c k 0).beat (bundleOfOp g s d none) = none := rfl
  have hct : (st.env c k 0).ctl (bundleOfOp g s d none) = none := rfl
  have hck : (bundleOfOp g s d none).ck = false := rfl
  have hacc : (st.env c k 0).accesses (bundleOfOp g s d none) = [] := by simp [Env.accesses, hen, hbe]
  have hunits : (st.env c k 0).units (bundleOfOp g s d none) = [] := by simp [Env.units, hen, hd]
  have hbr : ((st.env c k 0).moved (bundleOfOp g s d none)).breaksBurst = false := by
    have a5 : ¬ 0x200 ≤ d.toNat := by omega
    have hx : (d == 0x355#10) = false := beq_false_of_ne (by rintro rfl; exact absurd hd (by decide))
    exact Env.breaksBurst_nil _ (by simp [Env.moved, hen, a5]) (by simp [Env.moved, hen, hx])
  have hheld : (st.env c k 0).held (bundleOfOp g s d none) = none := by
    have hm : decide (d.toNat ≥ 0x340 ∧ d.toNat < 0x350) = false := decide_eq_false (by omega)
    simp only [Env.held, hacc, hct, hen, hbe, hunits, hbr]
    simp only [State.bursting, Env.underOwn, Env.behindOwn, Env.crowds_nil, Env.missing, Env.asleep, List.any_nil, List.flatMap_nil, List.findSome?_nil,
      Option.filter_none, Bool.and_false, Bool.or_false, Bool.false_and, ite_self, hck, Bool.false_eq_true, if_false, Option.isSome_none,
      List.any_cons, hm]
    change (if st.late c k = true then some st else none) = none
    rw [h8]
    rfl
  have n1 : d ≠ 0x329#10 := by rintro rfl; exact absurd hd (by decide)
  have n2 : d ≠ 0x32A#10 := by rintro rfl; exact absurd hd (by decide)
  have n3 : d ≠ 0x350#10 := by rintro rfl; exact absurd hd (by decide)
  have hill : (st.env c k 0).illegalNow (bundleOfOp g s d none) = 0 := by
    have hms : (bundleOfOp g s d none).mvs = [⟨slotOf d, g, s, d, none⟩] := rfl
    have hf := foldl_legal (bundleOfOp g s d none).mvs (st.env c k 0).y.timed (.inr (by simp [hms, n1, n2]))
    simp only [Env.illegalNow, hbe, hct, hf]
    simp [setBit]
  have hrets : (st.env c k 0).returns (bundleOfOp g s d none) = none := by
    simp only [Env.returns, hen]
    simp [n3]
  have hact : (st.env c k 0).act (bundleOfOp g s d none) =
      .ok (st.setRegs c k ((st.env c k 0).writeMove (st.ctx c k).regs ⟨slotOf d, g, s, d, none⟩), .fall) := by
    obtain ⟨r, hrd⟩ : ∃ r, r = (st.env c k 0).writeMove (st.ctx c k).regs ⟨slotOf d, g, s, d, none⟩ := ⟨_, rfl⟩
    rw [← hrd]
    obtain ⟨e, hed⟩ : ∃ e : Env, e = { st.env c k 0 with r := r, dsts := [d] } := ⟨_, rfl⟩
    have a5 : ¬ 0x200 ≤ d.toNat := by omega
    have hw : (st.env c k 0).step3 ((st.env c k 0).enabled (bundleOfOp g s d none)) = r := by rw [hen, hrd]; rfl
    have hmv : (st.env c k 0).moved (bundleOfOp g s d none) = e := by
      have h0 := hw
      rw [hen] at h0
      have hx : (d == 0x355#10) = false := beq_false_of_ne (by rintro rfl; exact absurd hd (by decide))
      simp only [Env.moved, hen, h0, List.map_cons, List.map_nil, List.filterMap_cons, List.filterMap_nil, a5, false_and, if_false,
        List.find?_cons, List.find?_nil, hx, hed]
      rfl
    have hsv : e.scalar s = st.src c k s := by rw [hed]; exact Env.scalar_rest ..
    have hvv : e.vector s = st.vsrc c k s := by rw [hed]; exact Env.vector_rest ..
    have hcheck : e.moveCheck ⟨slotOf d, g, s, d, none⟩ = .ok () := by
      have hmk : e.markCheck ⟨slotOf d, g, s, d, none⟩ = .ok () := by
        simp only [Env.markCheck, hvv, trapIf]
        by_cases hb : busOf d
        · simp [hb]
        · rcases hmark (by simpa using hb) with h | ⟨x1, x2, x3⟩
          · simp [h]
          · simp [x1, x2, x3]
      have hre : e.regError s = .ok () := by rw [hed]; simp [Env.regError, State.env, h6]
      have hop : e.y.region.isOpen = false := by rw [hed]; exact h7
      simp only [Env.moveCheck, hsv, hvv, hmk, hre, hop, trapIf, Bool.false_and, Bool.false_eq_true, if_false, bind, Except.bind]
      by_cases a : 0x80 ≤ d.toNat ∧ d.toNat < 0xC0
      · have := hclean a.1 (by omega)
        rw [if_pos a.2] at this
        rw [if_pos a]
        exact this
      · rw [if_neg a]
        by_cases a' : 0xC0 ≤ d.toNat ∧ d.toNat < 0x100
        · have := hclean (by omega) a'.2
          rw [if_neg (by omega)] at this
          rw [if_pos a']
          exact this
        · rw [if_neg a']
    have h4 : e.step4 [⟨slotOf d, g, s, d, none⟩] (st.setRegs c k r) = .ok (st.setRegs c k r) := by
      have hs : e.runSlot ⟨slotOf d, g, s, d, none⟩ (st.setRegs c k r) = .ok (st.setRegs c k r) := by
        simp only [Env.runSlot, hcheck, bind, Except.bind]
        rfl
      have hr : e.runSlots [⟨slotOf d, g, s, d, none⟩] (st.setRegs c k r) = .ok (st.setRegs c k r) := by
        simp [Env.runSlots, hs, bind, Except.bind, pure, Except.pure]
      simp only [Env.step4, hr]
      simpa [unitOrder, insertMv] using hr
    exact act_eq (s0 := st.setRegs c k r) _ e hi rfl hmv (by rw [hw]; rfl) (by rw [hen]; exact h4) rfl
  have he := bundleEnv_eq st c k (bundleOfOp g s d none) rfl rfl
  simp only [issue, State.actor_eq ht, he, preTrap_none _ hi hbad, dueTrap_none hi, hheld, hill, hact]
  simp only [ne_eq, not_true, if_false]
  rw [commits_eq _ _ .fall hi (by simpa [State.setRegs] using h7) (by simpa [State.setRegs] using h6) hrets (by simp [hct])]
  rw [Env.carrel, hacc, hunits]
  rfl

/-- THE ISSUE OF A LONE CONTROL OPERATION without a software trap. -/
theorem issue_ctl {st s1 : State} {c k : Nat} {f : Flow} (i : Instr) (g : BitVec 4) (x : Ctl) (hi : st.Issues c k)
    (hbad : ctlFieldsOk i = true) (hg : (st.ctx c k).regs.rdQ g.toNat = true)
    (hill : x.illegal (st.env c k 0) = false) (hhold : x.hold (st.env c k 0) st = false) (hsoft : x.soft = none)
    (hrun : x.run (st.env c k 0) st = .ok (s1, f))
    (hregion : (s1.ctx c k).region.isOpen = false) (hreg : (s1.ctx c k).regBad = []) :
    issue (bundleOfCtlOp i g x) st = st.issued s1 c k (bundleOfCtl ((ctlOf i).getD 0)) [] false f := by
  obtain ⟨ht, hl, h3, h4, h5, h6, h7, h8⟩ := hi
  have hi : st.Issues c k := ⟨ht, hl, h3, h4, h5, h6, h7, h8⟩
  have hb : (bundleOfCtlOp i g x).bad = 0 := by simp [bundleOfCtlOp, hbad]
  have hen : (st.env c k 0).enabled (bundleOfCtlOp i g x) = [] := rfl
  have hbe : (st.env c k 0).beat (bundleOfCtlOp i g x) = none := rfl
  have hct : (st.env c k 0).ctl (bundleOfCtlOp i g x) = some x := by
    simp only [Env.ctl, bundleOfCtlOp, State.env, hg, if_true]
  have hacc : (st.env c k 0).accesses (bundleOfCtlOp i g x) = [] := rfl
  have hheld : (st.env c k 0).held (bundleOfCtlOp i g x) = none := by
    have hck : (bundleOfCtlOp i g x).ck = false := rfl
    have hun : (st.env c k 0).units (bundleOfCtlOp i g x) = [] := rfl
    have hbr := moved_breaks _ _ hen
    simp only [Env.held, hacc, hct, hen, hbe, hun, hbr]
    simp only [State.bursting, Env.underOwn, Env.behindOwn, Env.crowds_nil, Env.missing, Env.asleep, List.any_nil, List.flatMap_nil, List.findSome?_nil, Option.filter_none,
      Bool.and_false, Bool.or_false, Bool.false_and, ite_self, hck, Bool.false_eq_true, if_false, Option.isSome_none]
    change (if st.late c k = true then some st else if x.hold (st.env c k 0) st = true then some st else none) = none
    rw [h8, hhold]
    rfl
  have hilln : (st.env c k 0).illegalNow (bundleOfCtlOp i g x) = 0 := by
    have hms : (bundleOfCtlOp i g x).mvs = [] := rfl
    simp only [Env.illegalNow, hms, hbe, hct, hill]
    simp [setBit]
  have hrets : (st.env c k 0).returns (bundleOfCtlOp i g x) = none := by
    simp [Env.returns, hen]
  have hact : (st.env c k 0).act (bundleOfCtlOp i g x) = .ok (s1, f) := by
    have h5' : (st.env c k 0).step5 (bundleOfCtlOp i g x) st = .ok (s1, f) := by
      unfold Env.step5
      rw [hbe, hct]
      have h7' : (st.env c k 0).y.region.isOpen = false := h7
      simp only [h7', Bool.false_and, trapIf, hrets]
      change Except.bind (x.run (st.env c k 0) st) _ = _
      rw [hrun]
      rfl
    exact act_eq _ _ hi rfl rfl hl rfl h5'
  have he := bundleEnv_eq st c k (bundleOfCtlOp i g x) rfl rfl
  simp only [issue, State.actor_eq ht, he, preTrap_none _ hi hb, dueTrap_none hi, hheld, hilln, hact]
  simp only [ne_eq, not_true, if_false]
  rw [commits_eq _ s1 f hi hregion hreg hrets (by intro y hy; rw [hct] at hy; cases hy; exact hsoft)]
  rfl

/-- THE ISSUE OF A LONE BEAT. -/
theorem issue_beat {st s1 : State} {c k : Nat} (w : BitVec 28) (g : BitVec 4) (x : Beat) (hi : st.Issues c k)
    (hg : (st.ctx c k).regs.rdQ g.toNat = true)
    (hmode : x.mode = none ∨ x.mode = some (st.env c k 0).arr.grad)
    (hbeside : st.regionBeside c k = false) (hclear : (st.env c k 0).Clear (x.acc (st.env c k 0)))
    (hrun : x.run (st.env c k 0) st = .ok s1)
    (hregion : (s1.ctx c k).region.isOpen = false) (hreg : (s1.ctx c k).regBad = []) :
    issue (bundleOfBeatOp w g x) st =
      st.issued s1 c k (bundleOfBeat w) [] (holdsCarrel (x.acc (st.env c k 0))) .fall := by
  obtain ⟨ht, hl, h3, h4, h5, h6, h7, h8⟩ := hi
  have hi : st.Issues c k := ⟨ht, hl, h3, h4, h5, h6, h7, h8⟩
  have hen : (st.env c k 0).enabled (bundleOfBeatOp w g x) = [] := rfl
  have hbe : (st.env c k 0).beat (bundleOfBeatOp w g x) = some x := by
    simp only [Env.beat, bundleOfBeatOp, State.env, hg, if_true]
  have hct : (st.env c k 0).ctl (bundleOfBeatOp w g x) = none := rfl
  have hacc : (st.env c k 0).accesses (bundleOfBeatOp w g x) = x.acc (st.env c k 0) := by
    simp [Env.accesses, hen, hbe]
  have hheld : (st.env c k 0).held (bundleOfBeatOp w g x) = none := by
    obtain ⟨c1, c2, c3, c4⟩ := hclear
    have hck : (bundleOfBeatOp w g x).ck = false := rfl
    have hbr := moved_breaks _ _ hen
    simp only [Env.held, hacc, c1, c2, c3, c4, hct, hen, hbe, hbr]
    simp only [State.env]
    simp [h8, hbeside, State.bursting, Env.units, Env.enabled, bundleOfBeatOp]
  have hilln : (st.env c k 0).illegalNow (bundleOfBeatOp w g x) = 0 := by
    have hms : (bundleOfBeatOp w g x).mvs = [] := rfl
    simp only [Env.illegalNow, hms, hbe, hct]
    rcases hmode with h | h <;> simp [setBit, h]
  have hrets : (st.env c k 0).returns (bundleOfBeatOp w g x) = none := by
    simp [Env.returns, hen]
  have hact : (st.env c k 0).act (bundleOfBeatOp w g x) = .ok (s1, .fall) := by
    have h5' : (st.env c k 0).step5 (bundleOfBeatOp w g x) st = .ok (s1, .fall) := by
      unfold Env.step5
      rw [hbe, hct]
      change Except.bind (x.run (st.env c k 0) st) (fun s => Except.ok (s, Flow.fall)) = _
      rw [hrun]
      rfl
    exact act_eq _ _ hi rfl rfl hl rfl h5'
  have he := bundleEnv_eq st c k (bundleOfBeatOp w g x) rfl rfl
  have hb : (bundleOfBeatOp w g x).bad = 0 := rfl
  simp only [issue, State.actor_eq ht, he, preTrap_none _ hi hb, dueTrap_none hi, hheld, hilln, hact]
  simp only [ne_eq, not_true, if_false]
  rw [commits_eq _ s1 .fall hi hregion hreg hrets (by simp [hct])]
  rw [Env.carrel, hacc]
  rfl

end Sys2Proof.Machine
end

