-- ==== Sys2Proof/Laws/Ops.lean ====
section
/-! SUPPORT. What the checks of operands and words answer, and what an operation that only lands a result does. -/

namespace Sys2Proof.Machine

theorem moveWord_src (g : BitVec 4) (s d : BitVec 10) : (moveWord g s d).extractLsb' 10 10 = s := by
  ext i hi
  have h1 : 10 + i - 10 = i := by omega
  rw [BitVec.getElem_extractLsb']
  change (g ++ s ++ d : BitVec (4 + 10 + 10)).getLsbD _ = _
  rw [BitVec.getLsbD_append, if_neg (by omega), h1, BitVec.getLsbD_append, if_pos hi, BitVec.getLsbD_eq_getElem hi]

theorem moveWord_dst (g : BitVec 4) (s d : BitVec 10) : (moveWord g s d).extractLsb' 0 10 = d := by
  ext i hi
  rw [BitVec.getElem_extractLsb']
  change (g ++ s ++ d : BitVec (4 + 10 + 10)).getLsbD _ = _
  rw [BitVec.getLsbD_append, Nat.zero_add, if_pos hi, BitVec.getLsbD_eq_getElem hi]

/-- A trigger move that R24, R27 and R34 allow is legal. -/
theorem bad_trig (g : BitVec 4) (s d : BitVec 10) (o : Option Op) (hd : 0x200 ≤ d.toNat)
    (ht : (trigInstr ((d.toNat - 0x200) / 16) (d.toNat % 16) 0 s).isSome = true) (hs : srcOk (busOf d) s = true)
    (hx : s ≠ 0x300#10) : (bundleOfOp g s d o).bad = 0 := by
  have h1 : ¬ d.toNat < 0x200 := by omega
  have hb : busOf d = trigClass ((d.toNat - 0x200) / 16) := by simp [busOf, h1]
  have hbad : ∀ n, n = (if busOf d then 0 else 4) → moveBad n (moveWord g s d) = false := by
    intro n hn
    simp only [moveBad, moveWord_src, moveWord_dst, h1, if_false, ht, if_true]
    rw [← hb]
    have : decide (n < 4) = busOf d := by subst hn; cases busOf d <;> rfl
    rw [this, hs]
    simp
  simp only [bundleOfOp]
  rw [hbad _ rfl]
  simp [hx, setBit]

/-- A move to a register or port that R24 and R27 allow is legal. -/
theorem bad_move (g : BitVec 4) (s d : BitVec 10) (o : Option Op) (hd : d.toNat < 0x200)
    (ht : (dstClass d).isSome = true) (hs : srcOk (busOf d) s = true)
    (hx : s ≠ 0x300#10) : (bundleOfOp g s d o).bad = 0 := by
  obtain ⟨b, hb⟩ := Option.isSome_iff_exists.mp ht
  have hb' : busOf d = b := by simp [busOf, hd, hb]
  have hbad : ∀ n, n = (if busOf d then 0 else 4) → moveBad n (moveWord g s d) = false := by
    intro n hn
    simp only [moveBad, moveWord_src, moveWord_dst, hd, if_true, hb]
    rw [← hb']
    have : decide (n < 4) = busOf d := by subst hn; cases busOf d <;> rfl
    rw [this, hs]
    simp
  simp only [bundleOfOp]
  rw [hbad _ rfl]
  simp [hx, setBit]

/-! ### Operands -/

theorem consume_ok {us : List Use} (h : ∀ u ∈ us, u.bad = 0) : consume us = .ok () := by
  have : us.filter (fun u => u.bad != 0) = [] := by
    rw [List.filter_eq_nil_iff]; intro u hu; simpa using h u hu
  unfold consume
  rw [this]

theorem checkUses_ok {us : List Use} (ht : ∀ u ∈ us, u.tagBad = false) (h : ∀ u ∈ us, u.bad = 0) : checkUses us = .ok () := by
  have : us.find? Use.tagBad = none := by
    rw [List.find?_eq_none]; intro u hu; simpa using ht u hu
  unfold checkUses
  rw [this]
  exact consume_ok h

@[simp] theorem useS_tagBad (v : SVal) (n : Nat) : (useS v n).tagBad = false := rfl
theorem useS_bad {v : SVal} (n : Nat) (h : v.Clean) : (useS v n).bad = 0 := by
  have h' : v.poison = false := h
  simp [useS, Use.bad, h']

theorem useV_tagBad {v : VVal} {lanes : Mask} {tags : List Tag} (n : Nat) (h : v.Fits lanes tags) :
    (useV v n tags).tagBad = false := by
  obtain ⟨-, h2, h3⟩ := h
  simp only [useV, Use.tagBad, h2, Bool.false_or, Bool.not_false, Bool.true_and]
  rcases h3 with h3 | h3
  · rw [h3]; rfl
  · rw [h3]; simp

theorem useV_bad {v : VVal} {lanes : Mask} {tags : List Tag} (n : Nat) (h : v.Fits lanes tags) :
    ({ useV v n tags with lanes := lanes } : Use).bad = 0 := h.1

theorem useAny_tagBad {v : VVal} {lanes : Mask} (n : Nat) (h : v.Clean lanes) : (useAny v n).tagBad = false := by
  obtain ⟨-, h2⟩ := h
  simp [useAny, Use.tagBad, h2]

theorem useAny_bad {v : VVal} {lanes : Mask} (n : Nat) (h : v.Clean lanes) :
    ({ useAny v n with lanes := lanes } : Use).bad = 0 := h.1

theorem trapIf_false {b : Bool} (t : Trap) (h : b = false) : trapIf b t = .ok () := by simp [trapIf, h]

/-! ### Operations that land a result -/

theorem opLand_ok {us : List Use} (f lat : Nat) (z y : Option LVal) (fl : BitVec 5) (e : Env) (s : State)
    (h : checkUses us = .ok ()) : opLand f lat us z y fl e s = .ok (s.lands e.c e.k f lat z y fl) := by
  simp only [opLand, h]
  rfl

/-- THE ISSUE OF AN OPERATION that makes no access and is held by nothing. -/
theorem issue_plain {st s1 : State} {c k : Nat} (g : BitVec 4) (x d : BitVec 10)
    (run : Env → LVal → State → Except Trap State) (ht : st.Trig c k g x d) (hd : 0x200 ≤ d.toNat)
    (hi : (trigInstr ((d.toNat - 0x200) / 16) (d.toNat % 16) 0 x).isSome = true)
    (hret : d = 0x350#10 → (st.ctx c k).record.valid = true → returnOf (st.operand c k x d).sval.val = none)
    (hport : d = 0x329#10 ∨ d = 0x32A#10 → (st.ctx c k).timed = true)
    (hmx : 0x340 ≤ d.toNat → d.toNat < 0x350 → st.regionBeside c k = false)
    (hburst : st.bursting c k [trigUnit d] = false) (hbreaks : (st.lone c k 0 x d).breaksBurst = false)
    (hmark : busOf d = false → (st.vsrc c k x).mark = false)
    (hrun : run (st.lone c k (slotOf d) x d) (st.operand c k x d) st = .ok s1)
    (hregion : (s1.ctx c k).region.isOpen = false) (hreg : (s1.ctx c k).regBad = []) :
    issue (bundleOfOp g x d (some (Op.plain run))) st = st.issued s1 c k (moveBundle g x d) [trigUnit d] false .fall := by
  obtain ⟨h1, h2, h3, h4⟩ := ht
  exact issue_op g x d _ h1 (bad_trig g x d _ hd hi h3 h4) hd h2 hret hport hmx hburst hbreaks hmark
    ⟨rfl, by simp [Env.behindOwn, Env.crowds_nil, Op.plain], by simp [Env.missing, Op.plain], by simp [Env.asleep, Op.plain]⟩ rfl hrun hregion hreg

/-! ### Rows of operations -/

theorem trigCode_toNat {f o : Nat} (h : 16 * f + o < 0x200) : (trigCode f o).toNat = 0x200 + 16 * f + o := by
  simp only [trigCode, BitVec.toNat_ofNat]
  omega

/-- The operand of a trigger on its bus. -/
theorem operand_trig {s : State} {c k f o : Nat} {x : BitVec 10} (hf : f < 32) (ho : o < 16) :
    s.operand c k x (trigCode f o) = (s.env c k 0).source (trigClass f) x := by
  have hn := trigCode_toNat (f := f) (o := o) (by omega)
  have h : (0x200 + 16 * f + o - 0x200) / 16 = f := by omega
  simp only [State.operand, hn, h]

/-- A row of an operation holds when, on its conditions, the operation makes the row's accesses, is held by nothing and acts as the row
says, with no region opened and no register spoiled. -/
theorem runs_of {s : State} {c k : Nat} {i : Instr} {r : UnitRow} {dst : BitVec 10} {o : Op}
    (he : exec i s = .next (issue (bundleOfOp r.g r.x dst (some o)) s)) (f n : Nat) (hdst : dst = trigCode f n)
    (hf : f < 32) (hn : n < 16) (hu : 16 * r.unit + r.code = 16 * f + n)
    (hi : (trigInstr f n 0 r.x).isSome = true)
    (hfu : fuOf f = r.unit)
    (hport : s.Trig c k r.g r.x (trigCode f n) → r.ok = true → f = 18 → n = 9 ∨ n = 10 → (s.ctx c k).timed = true)
    (hret : r.ok = true → f = 21 → n = 0 → returnOf ((s.env c k 0).source (trigClass f) r.x).sval.val = none)
    (hmark : r.ok = true → trigClass f = false → (s.vsrc c k r.x).mark = false)
    (hbreaks : r.ok = true → (s.lone c k 0 r.x (trigCode f n)).breaksBurst = false)
    (hacc : o.acc (s.lone c k 0 r.x (trigCode f n)) ((s.env c k 0).source (trigClass f) r.x) = r.accs)
    (hok : s.Issues c k → r.ok = true →
      o.hold (s.lone c k (slotOf (trigCode f n)) r.x (trigCode f n)) ((s.env c k 0).source (trigClass f) r.x) s = none ∧
      o.run (s.lone c k (slotOf (trigCode f n)) r.x (trigCode f n)) ((s.env c k 0).source (trigClass f) r.x) s = .ok r.post ∧
      (r.post.ctx c k).region.isOpen = false ∧ (r.post.ctx c k).regBad = []) : s.Runs c k i r := by
  have hd : trigCode r.unit r.code = trigCode f n := by
    simp only [trigCode]
    congr 1
    omega
  subst hdst
  intro ht hc hb hbu ho
  rw [hd] at ht ⊢
  obtain ⟨h1, h2, h3, h4⟩ := ht
  have hv : (trigCode f n).toNat = 0x200 + 16 * f + n := trigCode_toNat (by omega)
  have hq : ((trigCode f n).toNat - 0x200) / 16 = f := by rw [hv]; omega
  have hr : (trigCode f n).toNat % 16 = n := by rw [hv]; omega
  have hop := operand_trig (s := s) (c := c) (k := k) (x := r.x) hf hn
  have hun : trigUnit (trigCode f n) = r.unit := by simp only [trigUnit, hq, hfu]
  have hbus : busOf (trigCode f n) = trigClass f := by
    have a : ¬ (trigCode f n).toNat < 0x200 := by omega
    simp only [busOf, a, if_false, hq]
  obtain ⟨a1, a2, a3, a4⟩ := hok h1 ho
  rw [he, ← hacc, ← hop, ← hun]
  refine congrArg Host.Outcome.next (issue_op r.g r.x _ _ h1 (bad_trig _ _ _ _ (by omega) (by rw [hq, hr]; exact hi) h3 h4) (by omega)
    h2 ?_ ?_ ?_ (by rw [hun]; exact hbu) (hbreaks ho) (by rw [hbus]; exact hmark ho) ?_ ?_ ?_ a3 a4)
  · intro hx hvalid
    have := congrArg BitVec.toNat hx
    rw [hv] at this
    rw [hop]
    have h5 : (0x350#10).toNat = 0x350 := rfl
    exact hret ho (by omega) (by omega)
  · intro hx
    have h5 : (0x329#10).toNat = 0x329 := rfl
    have h6 : (0x32A#10).toNat = 0x32A := rfl
    refine hport ⟨h1, h2, h3, h4⟩ ho ?_ ?_ <;> rcases hx with hx | hx <;> have := congrArg BitVec.toNat hx <;> omega
  · intro h5 h6
    have h7 : f = 20 := by omega
    exact hb (by rw [← hfu, h7]; rfl)
  · rw [hop, hacc]; exact hc
  · rw [hop]; exact a1
  · rw [hop]; exact a2

/-- A row of an operation without accesses that nothing holds. -/
theorem runs_plain {s : State} {c k : Nat} {i : Instr} {r : UnitRow} {dst : BitVec 10} {o : Op}
    (he : exec i s = .next (issue (bundleOfOp r.g r.x dst (some o)) s)) {run : Env → LVal → State → Except Trap State}
    (hrun : o = Op.plain run) (f n : Nat) (hdst : dst = trigCode f n)
    (hf : f < 32) (hn : n < 16) (hu : 16 * r.unit + r.code = 16 * f + n)
    (hi : (trigInstr f n 0 r.x).isSome = true) (hfu : fuOf f = r.unit)
    (hport : s.Trig c k r.g r.x (trigCode f n) → r.ok = true → f = 18 → n = 9 ∨ n = 10 → (s.ctx c k).timed = true)
    (hret : r.ok = true → f = 21 → n = 0 → returnOf ((s.env c k 0).source (trigClass f) r.x).sval.val = none)
    (hmark : r.ok = true → trigClass f = false → (s.vsrc c k r.x).mark = false)
    (hbreaks : r.ok = true → (s.lone c k 0 r.x (trigCode f n)).breaksBurst = false)
    (hacc : r.accs = [])
    (hok : s.Issues c k → r.ok = true →
      run (s.lone c k (slotOf (trigCode f n)) r.x (trigCode f n)) ((s.env c k 0).source (trigClass f) r.x) s = .ok r.post ∧
      (r.post.ctx c k).region.isOpen = false ∧ (r.post.ctx c k).regBad = []) : s.Runs c k i r := by
  subst hrun
  exact runs_of he f n hdst hf hn hu hi hfu hport hret hmark hbreaks (by rw [hacc]; rfl) fun h1 h2 => ⟨rfl, hok h1 h2⟩

theorem slotOf_trig {f n : Nat} (hf : f < 32) (hn : n < 16) : slotOf (trigCode f n) = if trigClass f then 0 else 4 := by
  have a : ¬ (0x200 + 16 * f + n < 0x200) := by omega
  have b : (0x200 + 16 * f + n - 0x200) / 16 = f := by omega
  simp only [slotOf, busOf, trigCode_toNat (f := f) (o := n) (by omega), a, if_false, b]

theorem fits_of_fine {v : VVal} {tags : List Tag} {l : Mask} (h : v.fine tags l = true) : v.Fits l tags := by
  simp only [VVal.fine, Bool.and_eq_true, beq_iff_eq, Bool.not_eq_true', Bool.or_eq_true] at h
  exact ⟨h.1.1, h.1.2, h.2⟩

theorem clean_of_any {v : VVal} {l : Mask} (h : v.any l = true) : v.Clean l := by
  simp only [VVal.any, Bool.and_eq_true, beq_iff_eq, Bool.not_eq_true'] at h
  exact ⟨h.1, h.2⟩

theorem clean_of_fine {v : SVal} (h : v.fine = true) : v.Clean := by
  simpa [SVal.fine] using h

/-- A row of an operation of a vector unit. -/
theorem runs_vec {s : State} {c k : Nat} {i : Instr} {r : UnitRow} {dst : BitVec 10} {o : Op}
    (he : exec i s = .next (issue (bundleOfOp r.g r.x dst (some o)) s)) {run : Env → LVal → State → Except Trap State}
    (hrun : o = Op.plain run) (f n : Nat) (hdst : dst = trigCode f n)
    (hf : 8 ≤ f ∧ f ≤ 14) (hn : n < 16) (hu : 16 * r.unit + r.code = 16 * f + n)
    (hi : (trigInstr f n 0 r.x).isSome = true) (hv : trigClass f = false) (hfu : fuOf f = r.unit) (hacc : r.accs = [])
    (hmark : r.ok = true → (s.vsrc c k r.x).mark = false)
    (hok : r.ok = true → run (s.lone c k 4 r.x (trigCode f n)) (.v (s.vsrc c k r.x)) s = .ok r.post)
    (hpost : ∃ (p l : Nat) (z y : Option LVal) (fl : BitVec 5), r.post = s.lands c k p l z y fl) : s.Runs c k i r := by
  have hb : (s.lone c k 0 r.x (trigCode f n)).breaksBurst = false := by
    have hd := trigCode_toNat (f := f) (o := n) (by omega)
    refine lone_breaks s c k 0 r.x _ ?_ ?_
    · have ht : trigUnit (trigCode f n) = fuOf f := by
        simp only [trigUnit, hd]
        congr 1
        omega
      rw [ht]
      obtain ⟨h1, h2⟩ := hf
      interval_cases f <;> decide
    · intro hx
      have := congrArg BitVec.toNat hx
      rw [hd] at this
      have h5 : (0x355#10).toNat = 0x355 := rfl
      omega
  refine runs_plain he hrun f n hdst (by omega) hn hu hi hfu (by omega) (by omega) (fun h _ => hmark h) (fun _ => hb) hacc ?_
  intro h1 h2
  have hsrc : (s.env c k 0).source false r.x = .v (s.vsrc c k r.x) := rfl
  rw [slotOf_trig (by omega) hn, hv, hsrc]
  refine ⟨hok h2, ?_, ?_⟩ <;> obtain ⟨p, l, z, y, fl, hp⟩ := hpost <;> rw [hp]
  · simpa using h1.2.2.2.2.2.2.1
  · simpa using h1.2.2.2.2.2.1

end Sys2Proof.Machine
end

