-- ==== Sys2Proof/Laws/PerInstr.lean ====
section
/-! SUPPORT. The family Encoding, said of every instruction: its words have one home. A step is the word of a move slot (R22, R27), of the
control slot (R35), of the beat slot (R175) or an Xzgl word of a control core (R264), and never of two of these. -/

namespace Sys2Proof.Laws.Encoding

/-- The number of slots whose word the instruction is. -/
def homes (i : Instr) : Nat :=
  (moveOf i).isSome.toNat + (ctlOf i).isSome.toNat + (beatOf i).isSome.toNat + (xzglOf i).isSome.toNat

/-- An instruction is the word of at most one kind of slot, and it has the words of a bundle exactly when it is a whole bundle or the
word of a bundle's slot. -/
def Statement (i : Instr) : Prop :=
  homes i ≤ 1 ∧ ((xzglOf i).isSome = true → bundleOf i = none)

theorem bundleIssue (b : BitVec 256) : Statement (.bundleIssue b) := ⟨of_decide_eq_true rfl, fun h => nomatch h⟩
theorem checkpoint (b : BitVec 256) : Statement (.checkpoint b) := ⟨of_decide_eq_true rfl, fun h => nomatch h⟩
theorem move (g : BitVec 4) (s : BitVec 10) (d : BitVec 10) : Statement (.move g s d) := ⟨of_decide_eq_true rfl, fun h => nomatch h⟩
theorem add (g : BitVec 4) (s : BitVec 10) (u : BitVec 1) : Statement (.add g s u) := ⟨of_decide_eq_true rfl, fun h => nomatch h⟩
theorem sub (g : BitVec 4) (s : BitVec 10) (u : BitVec 1) : Statement (.sub g s u) := ⟨of_decide_eq_true rfl, fun h => nomatch h⟩
theorem and (g : BitVec 4) (s : BitVec 10) (u : BitVec 1) : Statement (.and g s u) := ⟨of_decide_eq_true rfl, fun h => nomatch h⟩
theorem or (g : BitVec 4) (s : BitVec 10) (u : BitVec 1) : Statement (.or g s u) := ⟨of_decide_eq_true rfl, fun h => nomatch h⟩
theorem xor (g : BitVec 4) (s : BitVec 10) (u : BitVec 1) : Statement (.xor g s u) := ⟨of_decide_eq_true rfl, fun h => nomatch h⟩
theorem andn (g : BitVec 4) (s : BitVec 10) (u : BitVec 1) : Statement (.andn g s u) := ⟨of_decide_eq_true rfl, fun h => nomatch h⟩
theorem shl (g : BitVec 4) (s : BitVec 10) (u : BitVec 1) : Statement (.shl g s u) := ⟨of_decide_eq_true rfl, fun h => nomatch h⟩
theorem shr (g : BitVec 4) (s : BitVec 10) (u : BitVec 1) : Statement (.shr g s u) := ⟨of_decide_eq_true rfl, fun h => nomatch h⟩
theorem sar (g : BitVec 4) (s : BitVec 10) (u : BitVec 1) : Statement (.sar g s u) := ⟨of_decide_eq_true rfl, fun h => nomatch h⟩
theorem min (g : BitVec 4) (s : BitVec 10) (u : BitVec 1) : Statement (.min g s u) := ⟨of_decide_eq_true rfl, fun h => nomatch h⟩
theorem max (g : BitVec 4) (s : BitVec 10) (u : BitVec 1) : Statement (.max g s u) := ⟨of_decide_eq_true rfl, fun h => nomatch h⟩
theorem minu (g : BitVec 4) (s : BitVec 10) (u : BitVec 1) : Statement (.minu g s u) := ⟨of_decide_eq_true rfl, fun h => nomatch h⟩
theorem maxu (g : BitVec 4) (s : BitVec 10) (u : BitVec 1) : Statement (.maxu g s u) := ⟨of_decide_eq_true rfl, fun h => nomatch h⟩
theorem sel (g : BitVec 4) (s : BitVec 10) (u : BitVec 1) : Statement (.sel g s u) := ⟨of_decide_eq_true rfl, fun h => nomatch h⟩
theorem pass (g : BitVec 4) (s : BitVec 10) (u : BitVec 1) : Statement (.pass g s u) := ⟨of_decide_eq_true rfl, fun h => nomatch h⟩
theorem hi (g : BitVec 4) (s : BitVec 10) (u : BitVec 1) : Statement (.hi g s u) := ⟨of_decide_eq_true rfl, fun h => nomatch h⟩
theorem ceq (g : BitVec 4) (s : BitVec 10) (u : BitVec 1) : Statement (.ceq g s u) := ⟨of_decide_eq_true rfl, fun h => nomatch h⟩
theorem cne (g : BitVec 4) (s : BitVec 10) (u : BitVec 1) : Statement (.cne g s u) := ⟨of_decide_eq_true rfl, fun h => nomatch h⟩
theorem clt (g : BitVec 4) (s : BitVec 10) (u : BitVec 1) : Statement (.clt g s u) := ⟨of_decide_eq_true rfl, fun h => nomatch h⟩
theorem cltu (g : BitVec 4) (s : BitVec 10) (u : BitVec 1) : Statement (.cltu g s u) := ⟨of_decide_eq_true rfl, fun h => nomatch h⟩
theorem cle (g : BitVec 4) (s : BitVec 10) (u : BitVec 1) : Statement (.cle g s u) := ⟨of_decide_eq_true rfl, fun h => nomatch h⟩
theorem cleu (g : BitVec 4) (s : BitVec 10) (u : BitVec 1) : Statement (.cleu g s u) := ⟨of_decide_eq_true rfl, fun h => nomatch h⟩
theorem clz (g : BitVec 4) (s : BitVec 10) (u : BitVec 1) : Statement (.clz g s u) := ⟨of_decide_eq_true rfl, fun h => nomatch h⟩
theorem ctz (g : BitVec 4) (s : BitVec 10) (u : BitVec 1) : Statement (.ctz g s u) := ⟨of_decide_eq_true rfl, fun h => nomatch h⟩
theorem popc (g : BitVec 4) (s : BitVec 10) (u : BitVec 1) : Statement (.popc g s u) := ⟨of_decide_eq_true rfl, fun h => nomatch h⟩
theorem sx8 (g : BitVec 4) (s : BitVec 10) (u : BitVec 1) : Statement (.sx8 g s u) := ⟨of_decide_eq_true rfl, fun h => nomatch h⟩
theorem sx16 (g : BitVec 4) (s : BitVec 10) (u : BitVec 1) : Statement (.sx16 g s u) := ⟨of_decide_eq_true rfl, fun h => nomatch h⟩
theorem sx32 (g : BitVec 4) (s : BitVec 10) (u : BitVec 1) : Statement (.sx32 g s u) := ⟨of_decide_eq_true rfl, fun h => nomatch h⟩
theorem zx32 (g : BitVec 4) (s : BitVec 10) (u : BitVec 1) : Statement (.zx32 g s u) := ⟨of_decide_eq_true rfl, fun h => nomatch h⟩
theorem bext (g : BitVec 4) (s : BitVec 10) (u : BitVec 1) : Statement (.bext g s u) := ⟨of_decide_eq_true rfl, fun h => nomatch h⟩
theorem bins (g : BitVec 4) (s : BitVec 10) (u : BitVec 1) : Statement (.bins g s u) := ⟨of_decide_eq_true rfl, fun h => nomatch h⟩
theorem adds (g : BitVec 4) (s : BitVec 10) (u : BitVec 1) : Statement (.adds g s u) := ⟨of_decide_eq_true rfl, fun h => nomatch h⟩
theorem mul (g : BitVec 4) (s : BitVec 10) : Statement (.mul g s) := ⟨of_decide_eq_true rfl, fun h => nomatch h⟩
theorem mulh (g : BitVec 4) (s : BitVec 10) : Statement (.mulh g s) := ⟨of_decide_eq_true rfl, fun h => nomatch h⟩
theorem mulhu (g : BitVec 4) (s : BitVec 10) : Statement (.mulhu g s) := ⟨of_decide_eq_true rfl, fun h => nomatch h⟩
theorem div (g : BitVec 4) (s : BitVec 10) : Statement (.div g s) := ⟨of_decide_eq_true rfl, fun h => nomatch h⟩
theorem divu (g : BitVec 4) (s : BitVec 10) : Statement (.divu g s) := ⟨of_decide_eq_true rfl, fun h => nomatch h⟩
theorem rem (g : BitVec 4) (s : BitVec 10) : Statement (.rem g s) := ⟨of_decide_eq_true rfl, fun h => nomatch h⟩
theorem remu (g : BitVec 4) (s : BitVec 10) : Statement (.remu g s) := ⟨of_decide_eq_true rfl, fun h => nomatch h⟩
theorem mix (g : BitVec 4) (s : BitVec 10) : Statement (.mix g s) := ⟨of_decide_eq_true rfl, fun h => nomatch h⟩
theorem ld8 (g : BitVec 4) (s : BitVec 10) : Statement (.ld8 g s) := ⟨of_decide_eq_true rfl, fun h => nomatch h⟩
theorem ld8u (g : BitVec 4) (s : BitVec 10) : Statement (.ld8u g s) := ⟨of_decide_eq_true rfl, fun h => nomatch h⟩
theorem ld16 (g : BitVec 4) (s : BitVec 10) : Statement (.ld16 g s) := ⟨of_decide_eq_true rfl, fun h => nomatch h⟩
theorem ld16u (g : BitVec 4) (s : BitVec 10) : Statement (.ld16u g s) := ⟨of_decide_eq_true rfl, fun h => nomatch h⟩
theorem ld32 (g : BitVec 4) (s : BitVec 10) : Statement (.ld32 g s) := ⟨of_decide_eq_true rfl, fun h => nomatch h⟩
theorem ld32u (g : BitVec 4) (s : BitVec 10) : Statement (.ld32u g s) := ⟨of_decide_eq_true rfl, fun h => nomatch h⟩
theorem ld64 (g : BitVec 4) (s : BitVec 10) : Statement (.ld64 g s) := ⟨of_decide_eq_true rfl, fun h => nomatch h⟩
theorem st8 (g : BitVec 4) (s : BitVec 10) : Statement (.st8 g s) := ⟨of_decide_eq_true rfl, fun h => nomatch h⟩
theorem st16 (g : BitVec 4) (s : BitVec 10) : Statement (.st16 g s) := ⟨of_decide_eq_true rfl, fun h => nomatch h⟩
theorem st32 (g : BitVec 4) (s : BitVec 10) : Statement (.st32 g s) := ⟨of_decide_eq_true rfl, fun h => nomatch h⟩
theorem st64 (g : BitVec 4) (s : BitVec 10) : Statement (.st64 g s) := ⟨of_decide_eq_true rfl, fun h => nomatch h⟩
theorem cas (g : BitVec 4) (s : BitVec 10) : Statement (.cas g s) := ⟨of_decide_eq_true rfl, fun h => nomatch h⟩
theorem ldlive (g : BitVec 4) (s : BitVec 10) : Statement (.ldlive g s) := ⟨of_decide_eq_true rfl, fun h => nomatch h⟩
theorem vld (g : BitVec 4) (s : BitVec 10) (u : BitVec 1) : Statement (.vld g s u) := ⟨of_decide_eq_true rfl, fun h => nomatch h⟩
theorem vldp (g : BitVec 4) (s : BitVec 10) (u : BitVec 1) : Statement (.vldp g s u) := ⟨of_decide_eq_true rfl, fun h => nomatch h⟩
theorem vlds (g : BitVec 4) (s : BitVec 10) (u : BitVec 1) : Statement (.vlds g s u) := ⟨of_decide_eq_true rfl, fun h => nomatch h⟩
theorem vldb (g : BitVec 4) (s : BitVec 10) (u : BitVec 1) : Statement (.vldb g s u) := ⟨of_decide_eq_true rfl, fun h => nomatch h⟩
theorem vgat (g : BitVec 4) (s : BitVec 10) (u : BitVec 1) : Statement (.vgat g s u) := ⟨of_decide_eq_true rfl, fun h => nomatch h⟩
theorem vst (g : BitVec 4) (s : BitVec 10) (u : BitVec 1) : Statement (.vst g s u) := ⟨of_decide_eq_true rfl, fun h => nomatch h⟩
theorem vstp (g : BitVec 4) (s : BitVec 10) (u : BitVec 1) : Statement (.vstp g s u) := ⟨of_decide_eq_true rfl, fun h => nomatch h⟩
theorem vsts (g : BitVec 4) (s : BitVec 10) (u : BitVec 1) : Statement (.vsts g s u) := ⟨of_decide_eq_true rfl, fun h => nomatch h⟩
theorem vsct (g : BitVec 4) (s : BitVec 10) (u : BitVec 1) : Statement (.vsct g s u) := ⟨of_decide_eq_true rfl, fun h => nomatch h⟩
theorem vspl (g : BitVec 4) (s : BitVec 10) (u : BitVec 1) : Statement (.vspl g s u) := ⟨of_decide_eq_true rfl, fun h => nomatch h⟩
theorem vfil (g : BitVec 4) (s : BitVec 10) (u : BitVec 1) : Statement (.vfil g s u) := ⟨of_decide_eq_true rfl, fun h => nomatch h⟩
theorem fadd (g : BitVec 4) (s : BitVec 10) (u : BitVec 1) : Statement (.fadd g s u) := ⟨of_decide_eq_true rfl, fun h => nomatch h⟩
theorem fsub (g : BitVec 4) (s : BitVec 10) (u : BitVec 1) : Statement (.fsub g s u) := ⟨of_decide_eq_true rfl, fun h => nomatch h⟩
theorem fmul (g : BitVec 4) (s : BitVec 10) (u : BitVec 1) : Statement (.fmul g s u) := ⟨of_decide_eq_true rfl, fun h => nomatch h⟩
theorem ffma (g : BitVec 4) (s : BitVec 10) (u : BitVec 1) : Statement (.ffma g s u) := ⟨of_decide_eq_true rfl, fun h => nomatch h⟩
theorem fmin (g : BitVec 4) (s : BitVec 10) (u : BitVec 1) : Statement (.fmin g s u) := ⟨of_decide_eq_true rfl, fun h => nomatch h⟩
theorem fmax (g : BitVec 4) (s : BitVec 10) (u : BitVec 1) : Statement (.fmax g s u) := ⟨of_decide_eq_true rfl, fun h => nomatch h⟩
theorem fabs (g : BitVec 4) (s : BitVec 10) (u : BitVec 1) : Statement (.fabs g s u) := ⟨of_decide_eq_true rfl, fun h => nomatch h⟩
theorem fneg (g : BitVec 4) (s : BitVec 10) (u : BitVec 1) : Statement (.fneg g s u) := ⟨of_decide_eq_true rfl, fun h => nomatch h⟩
theorem fcmp (g : BitVec 4) (s : BitVec 10) (u : BitVec 1) : Statement (.fcmp g s u) := ⟨of_decide_eq_true rfl, fun h => nomatch h⟩
theorem fcvti (g : BitVec 4) (s : BitVec 10) (u : BitVec 1) : Statement (.fcvti g s u) := ⟨of_decide_eq_true rfl, fun h => nomatch h⟩
theorem icvtf (g : BitVec 4) (s : BitVec 10) (u : BitVec 1) : Statement (.icvtf g s u) := ⟨of_decide_eq_true rfl, fun h => nomatch h⟩
theorem fsel (g : BitVec 4) (s : BitVec 10) (u : BitVec 1) : Statement (.fsel g s u) := ⟨of_decide_eq_true rfl, fun h => nomatch h⟩
theorem frnd (g : BitVec 4) (s : BitVec 10) (u : BitVec 1) : Statement (.frnd g s u) := ⟨of_decide_eq_true rfl, fun h => nomatch h⟩
theorem iadd (g : BitVec 4) (s : BitVec 10) (u : BitVec 1) : Statement (.iadd g s u) := ⟨of_decide_eq_true rfl, fun h => nomatch h⟩
theorem isub (g : BitVec 4) (s : BitVec 10) (u : BitVec 1) : Statement (.isub g s u) := ⟨of_decide_eq_true rfl, fun h => nomatch h⟩
theorem imul (g : BitVec 4) (s : BitVec 10) (u : BitVec 1) : Statement (.imul g s u) := ⟨of_decide_eq_true rfl, fun h => nomatch h⟩
theorem vand (g : BitVec 4) (s : BitVec 10) (u : BitVec 1) : Statement (.vand g s u) := ⟨of_decide_eq_true rfl, fun h => nomatch h⟩
theorem vor (g : BitVec 4) (s : BitVec 10) (u : BitVec 1) : Statement (.vor g s u) := ⟨of_decide_eq_true rfl, fun h => nomatch h⟩
theorem vxor (g : BitVec 4) (s : BitVec 10) (u : BitVec 1) : Statement (.vxor g s u) := ⟨of_decide_eq_true rfl, fun h => nomatch h⟩
theorem vshl (g : BitVec 4) (s : BitVec 10) (u : BitVec 1) : Statement (.vshl g s u) := ⟨of_decide_eq_true rfl, fun h => nomatch h⟩
theorem vshr (g : BitVec 4) (s : BitVec 10) (u : BitVec 1) : Statement (.vshr g s u) := ⟨of_decide_eq_true rfl, fun h => nomatch h⟩
theorem vsar (g : BitVec 4) (s : BitVec 10) (u : BitVec 1) : Statement (.vsar g s u) := ⟨of_decide_eq_true rfl, fun h => nomatch h⟩
theorem imin (g : BitVec 4) (s : BitVec 10) (u : BitVec 1) : Statement (.imin g s u) := ⟨of_decide_eq_true rfl, fun h => nomatch h⟩
theorem imax (g : BitVec 4) (s : BitVec 10) (u : BitVec 1) : Statement (.imax g s u) := ⟨of_decide_eq_true rfl, fun h => nomatch h⟩
theorem icmp (g : BitVec 4) (s : BitVec 10) (u : BitVec 1) : Statement (.icmp g s u) := ⟨of_decide_eq_true rfl, fun h => nomatch h⟩
theorem lbc (g : BitVec 4) (s : BitVec 10) (u : BitVec 1) : Statement (.lbc g s u) := ⟨of_decide_eq_true rfl, fun h => nomatch h⟩
theorem lperm (g : BitVec 4) (s : BitVec 10) (u : BitVec 1) : Statement (.lperm g s u) := ⟨of_decide_eq_true rfl, fun h => nomatch h⟩
theorem xcl (g : BitVec 4) (s : BitVec 10) (u : BitVec 1) : Statement (.xcl g s u) := ⟨of_decide_eq_true rfl, fun h => nomatch h⟩
theorem lred (g : BitVec 4) (s : BitVec 10) (u : BitVec 1) : Statement (.lred g s u) := ⟨of_decide_eq_true rfl, fun h => nomatch h⟩
theorem vtTri (g : BitVec 4) (s : BitVec 10) (i : BitVec 4) : Statement (.vtTri g s i) := ⟨of_decide_eq_true rfl, fun h => nomatch h⟩
theorem rcpa (g : BitVec 4) (s : BitVec 10) : Statement (.rcpa g s) := ⟨of_decide_eq_true rfl, fun h => nomatch h⟩
theorem rsqa (g : BitVec 4) (s : BitVec 10) : Statement (.rsqa g s) := ⟨of_decide_eq_true rfl, fun h => nomatch h⟩
theorem rcpn (g : BitVec 4) (s : BitVec 10) : Statement (.rcpn g s) := ⟨of_decide_eq_true rfl, fun h => nomatch h⟩
theorem rsqn (g : BitVec 4) (s : BitVec 10) : Statement (.rsqn g s) := ⟨of_decide_eq_true rfl, fun h => nomatch h⟩
theorem exp2a (g : BitVec 4) (s : BitVec 10) : Statement (.exp2a g s) := ⟨of_decide_eq_true rfl, fun h => nomatch h⟩
theorem log2a (g : BitVec 4) (s : BitVec 10) : Statement (.log2a g s) := ⟨of_decide_eq_true rfl, fun h => nomatch h⟩
theorem fsqrt (g : BitVec 4) (s : BitVec 10) : Statement (.fsqrt g s) := ⟨of_decide_eq_true rfl, fun h => nomatch h⟩
theorem fdiv (g : BitVec 4) (s : BitVec 10) : Statement (.fdiv g s) := ⟨of_decide_eq_true rfl, fun h => nomatch h⟩
theorem fscl (g : BitVec 4) (s : BitVec 10) : Statement (.fscl g s) := ⟨of_decide_eq_true rfl, fun h => nomatch h⟩
theorem fexp (g : BitVec 4) (s : BitVec 10) : Statement (.fexp g s) := ⟨of_decide_eq_true rfl, fun h => nomatch h⟩
theorem bmax (g : BitVec 4) (s : BitVec 10) : Statement (.bmax g s) := ⟨of_decide_eq_true rfl, fun h => nomatch h⟩
theorem qnt (g : BitVec 4) (s : BitVec 10) : Statement (.qnt g s) := ⟨of_decide_eq_true rfl, fun h => nomatch h⟩
theorem dqt (g : BitVec 4) (s : BitVec 10) : Statement (.dqt g s) := ⟨of_decide_eq_true rfl, fun h => nomatch h⟩
theorem cvb (g : BitVec 4) (s : BitVec 10) : Statement (.cvb g s) := ⟨of_decide_eq_true rfl, fun h => nomatch h⟩
theorem cvf (g : BitVec 4) (s : BitVec 10) : Statement (.cvf g s) := ⟨of_decide_eq_true rfl, fun h => nomatch h⟩
theorem cvsb (g : BitVec 4) (s : BitVec 10) : Statement (.cvsb g s) := ⟨of_decide_eq_true rfl, fun h => nomatch h⟩
theorem cvub (g : BitVec 4) (s : BitVec 10) : Statement (.cvub g s) := ⟨of_decide_eq_true rfl, fun h => nomatch h⟩
theorem fret (g : BitVec 4) (s : BitVec 10) : Statement (.fret g s) := ⟨of_decide_eq_true rfl, fun h => nomatch h⟩
theorem pack (g : BitVec 4) (s : BitVec 10) : Statement (.pack g s) := ⟨of_decide_eq_true rfl, fun h => nomatch h⟩
theorem unpk (g : BitVec 4) (s : BitVec 10) : Statement (.unpk g s) := ⟨of_decide_eq_true rfl, fun h => nomatch h⟩
theorem vtag (g : BitVec 4) (s : BitVec 10) : Statement (.vtag g s) := ⟨of_decide_eq_true rfl, fun h => nomatch h⟩
theorem xch (g : BitVec 4) (s : BitVec 10) : Statement (.xch g s) := ⟨of_decide_eq_true rfl, fun h => nomatch h⟩
theorem xchc (g : BitVec 4) (s : BitVec 10) : Statement (.xchc g s) := ⟨of_decide_eq_true rfl, fun h => nomatch h⟩
theorem xchl (g : BitVec 4) (s : BitVec 10) : Statement (.xchl g s) := ⟨of_decide_eq_true rfl, fun h => nomatch h⟩
theorem xchlc (g : BitVec 4) (s : BitVec 10) : Statement (.xchlc g s) := ⟨of_decide_eq_true rfl, fun h => nomatch h⟩
theorem mark (g : BitVec 4) (s : BitVec 10) : Statement (.mark g s) := ⟨of_decide_eq_true rfl, fun h => nomatch h⟩
theorem vac (g : BitVec 4) (s : BitVec 10) : Statement (.vac g s) := ⟨of_decide_eq_true rfl, fun h => nomatch h⟩
theorem setm (g : BitVec 4) (s : BitVec 10) : Statement (.setm g s) := ⟨of_decide_eq_true rfl, fun h => nomatch h⟩
theorem xst (g : BitVec 4) (s : BitVec 10) : Statement (.xst g s) := ⟨of_decide_eq_true rfl, fun h => nomatch h⟩
theorem sidx (g : BitVec 4) (s : BitVec 10) : Statement (.sidx g s) := ⟨of_decide_eq_true rfl, fun h => nomatch h⟩
theorem sred (g : BitVec 4) (s : BitVec 10) : Statement (.sred g s) := ⟨of_decide_eq_true rfl, fun h => nomatch h⟩
theorem stopk (g : BitVec 4) (s : BitVec 10) : Statement (.stopk g s) := ⟨of_decide_eq_true rfl, fun h => nomatch h⟩
theorem rpfx (g : BitVec 4) (s : BitVec 10) : Statement (.rpfx g s) := ⟨of_decide_eq_true rfl, fun h => nomatch h⟩
theorem rprm (g : BitVec 4) (s : BitVec 10) : Statement (.rprm g s) := ⟨of_decide_eq_true rfl, fun h => nomatch h⟩
theorem bcst (g : BitVec 4) (s : BitVec 10) : Statement (.bcst g s) := ⟨of_decide_eq_true rfl, fun h => nomatch h⟩
theorem arm (g : BitVec 4) (s : BitVec 10) : Statement (.arm g s) := ⟨of_decide_eq_true rfl, fun h => nomatch h⟩
theorem ecnt (g : BitVec 4) (s : BitVec 10) : Statement (.ecnt g s) := ⟨of_decide_eq_true rfl, fun h => nomatch h⟩
theorem radd (g : BitVec 4) (s : BitVec 10) : Statement (.radd g s) := ⟨of_decide_eq_true rfl, fun h => nomatch h⟩
theorem rmin (g : BitVec 4) (s : BitVec 10) : Statement (.rmin g s) := ⟨of_decide_eq_true rfl, fun h => nomatch h⟩
theorem rmax (g : BitVec 4) (s : BitVec 10) : Statement (.rmax g s) := ⟨of_decide_eq_true rfl, fun h => nomatch h⟩
theorem rand (g : BitVec 4) (s : BitVec 10) : Statement (.rand g s) := ⟨of_decide_eq_true rfl, fun h => nomatch h⟩
theorem ror (g : BitVec 4) (s : BitVec 10) : Statement (.ror g s) := ⟨of_decide_eq_true rfl, fun h => nomatch h⟩
theorem rxor (g : BitVec 4) (s : BitVec 10) : Statement (.rxor g s) := ⟨of_decide_eq_true rfl, fun h => nomatch h⟩
theorem rfadd (g : BitVec 4) (s : BitVec 10) : Statement (.rfadd g s) := ⟨of_decide_eq_true rfl, fun h => nomatch h⟩
theorem rrd (g : BitVec 4) (s : BitVec 10) : Statement (.rrd g s) := ⟨of_decide_eq_true rfl, fun h => nomatch h⟩
theorem rclr (g : BitVec 4) (s : BitVec 10) : Statement (.rclr g s) := ⟨of_decide_eq_true rfl, fun h => nomatch h⟩
theorem send (g : BitVec 4) (s : BitVec 10) : Statement (.send g s) := ⟨of_decide_eq_true rfl, fun h => nomatch h⟩
theorem recv (g : BitVec 4) (s : BitVec 10) : Statement (.recv g s) := ⟨of_decide_eq_true rfl, fun h => nomatch h⟩
theorem sendb (g : BitVec 4) (s : BitVec 10) : Statement (.sendb g s) := ⟨of_decide_eq_true rfl, fun h => nomatch h⟩
theorem recvb (g : BitVec 4) (s : BitVec 10) : Statement (.recvb g s) := ⟨of_decide_eq_true rfl, fun h => nomatch h⟩
theorem fbase (g : BitVec 4) (s : BitVec 10) : Statement (.fbase g s) := ⟨of_decide_eq_true rfl, fun h => nomatch h⟩
theorem fstr (g : BitVec 4) (s : BitVec 10) : Statement (.fstr g s) := ⟨of_decide_eq_true rfl, fun h => nomatch h⟩
theorem fcdx (g : BitVec 4) (s : BitVec 10) : Statement (.fcdx g s) := ⟨of_decide_eq_true rfl, fun h => nomatch h⟩
theorem fprog (g : BitVec 4) (s : BitVec 10) : Statement (.fprog g s) := ⟨of_decide_eq_true rfl, fun h => nomatch h⟩
theorem pbase (g : BitVec 4) (s : BitVec 10) : Statement (.pbase g s) := ⟨of_decide_eq_true rfl, fun h => nomatch h⟩
theorem pstr (g : BitVec 4) (s : BitVec 10) : Statement (.pstr g s) := ⟨of_decide_eq_true rfl, fun h => nomatch h⟩
theorem anch (g : BitVec 4) (s : BitVec 10) : Statement (.anch g s) := ⟨of_decide_eq_true rfl, fun h => nomatch h⟩
theorem live (g : BitVec 4) (s : BitVec 10) : Statement (.live g s) := ⟨of_decide_eq_true rfl, fun h => nomatch h⟩
theorem resid (g : BitVec 4) (s : BitVec 10) : Statement (.resid g s) := ⟨of_decide_eq_true rfl, fun h => nomatch h⟩
theorem sfst (g : BitVec 4) (s : BitVec 10) : Statement (.sfst g s) := ⟨of_decide_eq_true rfl, fun h => nomatch h⟩
theorem gmode (g : BitVec 4) (s : BitVec 10) : Statement (.gmode g s) := ⟨of_decide_eq_true rfl, fun h => nomatch h⟩
theorem mxst (g : BitVec 4) (s : BitVec 10) : Statement (.mxst g s) := ⟨of_decide_eq_true rfl, fun h => nomatch h⟩
theorem trecRead (g : BitVec 4) (s : BitVec 10) : Statement (.trecRead g s) := ⟨of_decide_eq_true rfl, fun h => nomatch h⟩
theorem trecResume (g : BitVec 4) (s : BitVec 10) : Statement (.trecResume g s) := ⟨of_decide_eq_true rfl, fun h => nomatch h⟩
theorem trecSkip (g : BitVec 4) (s : BitVec 10) : Statement (.trecSkip g s) := ⟨of_decide_eq_true rfl, fun h => nomatch h⟩
theorem budg (g : BitVec 4) (s : BitVec 10) : Statement (.budg g s) := ⟨of_decide_eq_true rfl, fun h => nomatch h⟩
theorem gcyc (g : BitVec 4) (s : BitVec 10) : Statement (.gcyc g s) := ⟨of_decide_eq_true rfl, fun h => nomatch h⟩
theorem ctx (g : BitVec 4) (s : BitVec 10) : Statement (.ctx g s) := ⟨of_decide_eq_true rfl, fun h => nomatch h⟩
theorem trld (g : BitVec 4) (s : BitVec 10) : Statement (.trld g s) := ⟨of_decide_eq_true rfl, fun h => nomatch h⟩
theorem sbase (g : BitVec 4) (s : BitVec 10) : Statement (.sbase g s) := ⟨of_decide_eq_true rfl, fun h => nomatch h⟩
theorem seed (g : BitVec 4) (s : BitVec 10) : Statement (.seed g s) := ⟨of_decide_eq_true rfl, fun h => nomatch h⟩
theorem lparm (g : BitVec 4) (s : BitVec 10) : Statement (.lparm g s) := ⟨of_decide_eq_true rfl, fun h => nomatch h⟩
theorem nop (g : BitVec 4) : Statement (.nop g) := ⟨of_decide_eq_true rfl, fun h => nomatch h⟩
theorem br (g : BitVec 4) (o : BitVec 14) : Statement (.br g o) := ⟨of_decide_eq_true rfl, fun h => nomatch h⟩
theorem call (g : BitVec 4) (n : BitVec 6) (o : BitVec 14) : Statement (.call g n o) := ⟨of_decide_eq_true rfl, fun h => nomatch h⟩
theorem ret (g : BitVec 4) (n : BitVec 6) : Statement (.ret g n) := ⟨of_decide_eq_true rfl, fun h => nomatch h⟩
theorem jmpi (g : BitVec 4) (n : BitVec 6) : Statement (.jmpi g n) := ⟨of_decide_eq_true rfl, fun h => nomatch h⟩
theorem calli (g : BitVec 4) (n : BitVec 6) (m : BitVec 6) : Statement (.calli g n m) := ⟨of_decide_eq_true rfl, fun h => nomatch h⟩
theorem limm (g : BitVec 4) (v : BitVec 22) : Statement (.limm g v) := ⟨of_decide_eq_true rfl, fun h => nomatch h⟩
theorem limmh (g : BitVec 4) (v : BitVec 22) : Statement (.limmh g v) := ⟨of_decide_eq_true rfl, fun h => nomatch h⟩
theorem loop (g : BitVec 4) (k : BitVec 2) (n : BitVec 6) (d : BitVec 10) (s : BitVec 3) (r : BitVec 1) : Statement (.loop g k n d s r) := ⟨of_decide_eq_true rfl, fun h => nomatch h⟩
theorem loopi (g : BitVec 4) (k : BitVec 2) (c : BitVec 6) (d : BitVec 10) (s : BitVec 3) (r : BitVec 1) : Statement (.loopi g k c d s r) := ⟨of_decide_eq_true rfl, fun h => nomatch h⟩
theorem brk (g : BitVec 4) (k : BitVec 2) : Statement (.brk g k) := ⟨of_decide_eq_true rfl, fun h => nomatch h⟩
theorem mpush (g : BitVec 4) (n : BitVec 3) : Statement (.mpush g n) := ⟨of_decide_eq_true rfl, fun h => nomatch h⟩
theorem mpop (g : BitVec 4) : Statement (.mpop g) := ⟨of_decide_eq_true rfl, fun h => nomatch h⟩
theorem minv (g : BitVec 4) (n : BitVec 3) : Statement (.minv g n) := ⟨of_decide_eq_true rfl, fun h => nomatch h⟩
theorem minvElse (g : BitVec 4) : Statement (.minvElse g) := ⟨of_decide_eq_true rfl, fun h => nomatch h⟩
theorem brnone (g : BitVec 4) (o : BitVec 14) : Statement (.brnone g o) := ⟨of_decide_eq_true rfl, fun h => nomatch h⟩
theorem brany (g : BitVec 4) (o : BitVec 14) : Statement (.brany g o) := ⟨of_decide_eq_true rfl, fun h => nomatch h⟩
theorem waitEng (g : BitVec 4) (e : BitVec 3) (n : BitVec 6) : Statement (.waitEng g e n) := ⟨of_decide_eq_true rfl, fun h => nomatch h⟩
theorem waitArr (g : BitVec 4) (k : BitVec 3) : Statement (.waitArr g k) := ⟨of_decide_eq_true rfl, fun h => nomatch h⟩
theorem waitXcnt (g : BitVec 4) (n : BitVec 6) : Statement (.waitXcnt g n) := ⟨of_decide_eq_true rfl, fun h => nomatch h⟩
theorem waitWeq (g : BitVec 4) (n : BitVec 6) (m : BitVec 6) : Statement (.waitWeq g n m) := ⟨of_decide_eq_true rfl, fun h => nomatch h⟩
theorem waitWne (g : BitVec 4) (n : BitVec 6) (m : BitVec 6) : Statement (.waitWne g n m) := ⟨of_decide_eq_true rfl, fun h => nomatch h⟩
theorem waitc (g : BitVec 4) (n : BitVec 6) : Statement (.waitc g n) := ⟨of_decide_eq_true rfl, fun h => nomatch h⟩
theorem phaseLaunch (g : BitVec 4) (w : BitVec 20) : Statement (.phaseLaunch g w) := ⟨of_decide_eq_true rfl, fun h => nomatch h⟩
theorem phaseGroup (g : BitVec 4) (w : BitVec 20) : Statement (.phaseGroup g w) := ⟨of_decide_eq_true rfl, fun h => nomatch h⟩
theorem tune (g : BitVec 4) : Statement (.tune g) := ⟨of_decide_eq_true rfl, fun h => nomatch h⟩
theorem cfence (g : BitVec 4) : Statement (.cfence g) := ⟨of_decide_eq_true rfl, fun h => nomatch h⟩
theorem sfenceAcq (g : BitVec 4) : Statement (.sfenceAcq g) := ⟨of_decide_eq_true rfl, fun h => nomatch h⟩
theorem sfenceRel (g : BitVec 4) : Statement (.sfenceRel g) := ⟨of_decide_eq_true rfl, fun h => nomatch h⟩
theorem sfenceAcqRel (g : BitVec 4) : Statement (.sfenceAcqRel g) := ⟨of_decide_eq_true rfl, fun h => nomatch h⟩
theorem trap (g : BitVec 4) (c : BitVec 16) : Statement (.trap g c) := ⟨of_decide_eq_true rfl, fun h => nomatch h⟩
theorem sysc (g : BitVec 4) (s : BitVec 16) : Statement (.sysc g s) := ⟨of_decide_eq_true rfl, fun h => nomatch h⟩
theorem halt (g : BitVec 4) : Statement (.halt g) := ⟨of_decide_eq_true rfl, fun h => nomatch h⟩
theorem yield (g : BitVec 4) : Statement (.yield g) := ⟨of_decide_eq_true rfl, fun h => nomatch h⟩
theorem ckend (g : BitVec 4) : Statement (.ckend g) := ⟨of_decide_eq_true rfl, fun h => nomatch h⟩
theorem push (g : BitVec 4) (c : BitVec 2) (row : BitVec 8) : Statement (.push g c row) := ⟨of_decide_eq_true rfl, fun h => nomatch h⟩
theorem feed (g : BitVec 4) (p : BitVec 2) (e : BitVec 6) (acc : BitVec 1) : Statement (.feed g p e acc) := ⟨of_decide_eq_true rfl, fun h => nomatch h⟩
theorem feedAbsd (g : BitVec 4) (p : BitVec 2) (e : BitVec 6) (acc : BitVec 1) : Statement (.feedAbsd g p e acc) := ⟨of_decide_eq_true rfl, fun h => nomatch h⟩
theorem feedCmps (g : BitVec 4) (p : BitVec 2) (e : BitVec 6) (acc : BitVec 1) : Statement (.feedCmps g p e acc) := ⟨of_decide_eq_true rfl, fun h => nomatch h⟩
theorem gfeed (g : BitVec 4) (p : BitVec 2) : Statement (.gfeed g p) := ⟨of_decide_eq_true rfl, fun h => nomatch h⟩
theorem drain (g : BitVec 4) (e : BitVec 6) : Statement (.drain g e) := ⟨of_decide_eq_true rfl, fun h => nomatch h⟩
theorem gdrain (g : BitVec 4) (c : BitVec 2) (k : BitVec 8) : Statement (.gdrain g c k) := ⟨of_decide_eq_true rfl, fun h => nomatch h⟩
theorem clr (g : BitVec 4) (e : BitVec 6) : Statement (.clr g e) := ⟨of_decide_eq_true rfl, fun h => nomatch h⟩
theorem gclr (g : BitVec 4) (c : BitVec 2) : Statement (.gclr g c) := ⟨of_decide_eq_true rfl, fun h => nomatch h⟩
theorem zlaunch (s : BitVec 5) (d : BitVec 5) : Statement (.zlaunch s d) := ⟨of_decide_eq_true rfl, fun _ => rfl⟩
theorem zkick (t : BitVec 5) (s : BitVec 5) : Statement (.zkick t s) := ⟨of_decide_eq_true rfl, fun _ => rfl⟩
theorem zscan (s : BitVec 5) (d : BitVec 5) : Statement (.zscan s d) := ⟨of_decide_eq_true rfl, fun _ => rfl⟩
theorem zcancel (t : BitVec 5) (s : BitVec 5) (d : BitVec 5) : Statement (.zcancel t s d) := ⟨of_decide_eq_true rfl, fun _ => rfl⟩
theorem zpreemptHalt (t : BitVec 5) (s : BitVec 5) (d : BitVec 5) : Statement (.zpreemptHalt t s d) := ⟨of_decide_eq_true rfl, fun _ => rfl⟩
theorem zpreemptResume (t : BitVec 5) (s : BitVec 5) (d : BitVec 5) : Statement (.zpreemptResume t s d) := ⟨of_decide_eq_true rfl, fun _ => rfl⟩
theorem zreset (s : BitVec 5) (d : BitVec 5) : Statement (.zreset s d) := ⟨of_decide_eq_true rfl, fun _ => rfl⟩
theorem zjrnl (s : BitVec 5) (d : BitVec 5) : Statement (.zjrnl s d) := ⟨of_decide_eq_true rfl, fun _ => rfl⟩
theorem zcolo (t : BitVec 5) (s : BitVec 5) (d : BitVec 5) : Statement (.zcolo t s d) := ⟨of_decide_eq_true rfl, fun _ => rfl⟩
theorem zbudget (t : BitVec 5) (s : BitVec 5) (d : BitVec 5) : Statement (.zbudget t s d) := ⟨of_decide_eq_true rfl, fun _ => rfl⟩
theorem zfence (t : BitVec 5) (s : BitVec 5) (d : BitVec 5) : Statement (.zfence t s d) := ⟨of_decide_eq_true rfl, fun _ => rfl⟩
theorem zctkoLive (w : BitVec 32) : Statement (.zctkoLive w) := ⟨of_decide_eq_true rfl, fun h => nomatch h⟩
theorem zjheadWrite (w : BitVec 32) : Statement (.zjheadWrite w) := ⟨of_decide_eq_true rfl, fun h => nomatch h⟩
theorem zxinvWrite (w : BitVec 32) : Statement (.zxinvWrite w) := ⟨of_decide_eq_true rfl, fun h => nomatch h⟩
theorem ztrapqRead (w : BitVec 32) : Statement (.ztrapqRead w) := ⟨of_decide_eq_true rfl, fun h => nomatch h⟩
theorem registerWrite (w : BitVec 32) : Statement (.registerWrite w) := ⟨of_decide_eq_true rfl, fun h => nomatch h⟩
theorem controlCoreInstruction (w : BitVec 32) : Statement (.controlCoreInstruction w) := ⟨of_decide_eq_true rfl, fun h => nomatch h⟩
theorem resultLanding : Statement (.resultLanding) := ⟨of_decide_eq_true rfl, fun h => nomatch h⟩
theorem spillRecord : Statement (.spillRecord) := ⟨of_decide_eq_true rfl, fun h => nomatch h⟩
theorem exchangeCompletion : Statement (.exchangeCompletion) := ⟨of_decide_eq_true rfl, fun h => nomatch h⟩
theorem engineAcquire : Statement (.engineAcquire) := ⟨of_decide_eq_true rfl, fun h => nomatch h⟩
theorem engineCommandStart : Statement (.engineCommandStart) := ⟨of_decide_eq_true rfl, fun h => nomatch h⟩
theorem engineRelease : Statement (.engineRelease) := ⟨of_decide_eq_true rfl, fun h => nomatch h⟩
theorem broadcastDelivery : Statement (.broadcastDelivery) := ⟨of_decide_eq_true rfl, fun h => nomatch h⟩
theorem reductionAtSlice : Statement (.reductionAtSlice) := ⟨of_decide_eq_true rfl, fun h => nomatch h⟩
theorem messageArrival : Statement (.messageArrival) := ⟨of_decide_eq_true rfl, fun h => nomatch h⟩
theorem mergeOverrun : Statement (.mergeOverrun) := ⟨of_decide_eq_true rfl, fun h => nomatch h⟩
theorem boundaryComplete : Statement (.boundaryComplete) := ⟨of_decide_eq_true rfl, fun h => nomatch h⟩
theorem beatLanding : Statement (.beatLanding) := ⟨of_decide_eq_true rfl, fun h => nomatch h⟩
theorem rerunCompare : Statement (.rerunCompare) := ⟨of_decide_eq_true rfl, fun h => nomatch h⟩
theorem holdRequest : Statement (.holdRequest) := ⟨of_decide_eq_true rfl, fun h => nomatch h⟩
theorem holdRelay : Statement (.holdRelay) := ⟨of_decide_eq_true rfl, fun h => nomatch h⟩
theorem countFreeze : Statement (.countFreeze) := ⟨of_decide_eq_true rfl, fun h => nomatch h⟩
theorem endNotice : Statement (.endNotice) := ⟨of_decide_eq_true rfl, fun h => nomatch h⟩
theorem holdResume : Statement (.holdResume) := ⟨of_decide_eq_true rfl, fun h => nomatch h⟩
theorem stacksHoldRequest : Statement (.stacksHoldRequest) := ⟨of_decide_eq_true rfl, fun h => nomatch h⟩
theorem bankPowerGate : Statement (.bankPowerGate) := ⟨of_decide_eq_true rfl, fun h => nomatch h⟩
theorem bankWake : Statement (.bankWake) := ⟨of_decide_eq_true rfl, fun h => nomatch h⟩
theorem bankAwake : Statement (.bankAwake) := ⟨of_decide_eq_true rfl, fun h => nomatch h⟩
theorem tuneDue : Statement (.tuneDue) := ⟨of_decide_eq_true rfl, fun h => nomatch h⟩
theorem groupDesync : Statement (.groupDesync) := ⟨of_decide_eq_true rfl, fun h => nomatch h⟩
theorem frameSlot : Statement (.frameSlot) := ⟨of_decide_eq_true rfl, fun h => nomatch h⟩
theorem frameArrival : Statement (.frameArrival) := ⟨of_decide_eq_true rfl, fun h => nomatch h⟩
theorem linkLockLoss : Statement (.linkLockLoss) := ⟨of_decide_eq_true rfl, fun h => nomatch h⟩
theorem packetAtPort : Statement (.packetAtPort) := ⟨of_decide_eq_true rfl, fun h => nomatch h⟩
theorem pageWalk : Statement (.pageWalk) := ⟨of_decide_eq_true rfl, fun h => nomatch h⟩
theorem supervisorTrap : Statement (.supervisorTrap) := ⟨of_decide_eq_true rfl, fun h => nomatch h⟩
theorem taskStart : Statement (.taskStart) := ⟨of_decide_eq_true rfl, fun h => nomatch h⟩
theorem waveStart : Statement (.waveStart) := ⟨of_decide_eq_true rfl, fun h => nomatch h⟩
theorem launchComplete : Statement (.launchComplete) := ⟨of_decide_eq_true rfl, fun h => nomatch h⟩
theorem heldSignalRelease : Statement (.heldSignalRelease) := ⟨of_decide_eq_true rfl, fun h => nomatch h⟩
theorem takeover : Statement (.takeover) := ⟨of_decide_eq_true rfl, fun h => nomatch h⟩
theorem preemptHalt : Statement (.preemptHalt) := ⟨of_decide_eq_true rfl, fun h => nomatch h⟩
theorem imageSave : Statement (.imageSave) := ⟨of_decide_eq_true rfl, fun h => nomatch h⟩
theorem coreReset : Statement (.coreReset) := ⟨of_decide_eq_true rfl, fun h => nomatch h⟩
theorem selfTest : Statement (.selfTest) := ⟨of_decide_eq_true rfl, fun h => nomatch h⟩
theorem syscEnqueue : Statement (.syscEnqueue) := ⟨of_decide_eq_true rfl, fun h => nomatch h⟩
theorem syscStatus : Statement (.syscStatus) := ⟨of_decide_eq_true rfl, fun h => nomatch h⟩
theorem syscCancel : Statement (.syscCancel) := ⟨of_decide_eq_true rfl, fun h => nomatch h⟩
theorem syscKick : Statement (.syscKick) := ⟨of_decide_eq_true rfl, fun h => nomatch h⟩
theorem boot : Statement (.boot) := ⟨of_decide_eq_true rfl, fun h => nomatch h⟩
theorem cc3Reboot : Statement (.cc3Reboot) := ⟨of_decide_eq_true rfl, fun h => nomatch h⟩
theorem thermalRead : Statement (.thermalRead) := ⟨of_decide_eq_true rfl, fun h => nomatch h⟩
theorem emergencyHold : Statement (.emergencyHold) := ⟨of_decide_eq_true rfl, fun h => nomatch h⟩
theorem ptpMessage : Statement (.ptpMessage) := ⟨of_decide_eq_true rfl, fun h => nomatch h⟩
theorem fabricImageFetch : Statement (.fabricImageFetch) := ⟨of_decide_eq_true rfl, fun h => nomatch h⟩
theorem statusRead : Statement (.statusRead) := ⟨of_decide_eq_true rfl, fun h => nomatch h⟩
theorem imageChunk : Statement (.imageChunk) := ⟨of_decide_eq_true rfl, fun h => nomatch h⟩
theorem imageCommit : Statement (.imageCommit) := ⟨of_decide_eq_true rfl, fun h => nomatch h⟩
theorem launchRequest : Statement (.launchRequest) := ⟨of_decide_eq_true rfl, fun h => nomatch h⟩
theorem cancel : Statement (.cancel) := ⟨of_decide_eq_true rfl, fun h => nomatch h⟩
theorem groupFormation : Statement (.groupFormation) := ⟨of_decide_eq_true rfl, fun h => nomatch h⟩
theorem groupDissolve : Statement (.groupDissolve) := ⟨of_decide_eq_true rfl, fun h => nomatch h⟩
theorem fuseProgramming : Statement (.fuseProgramming) := ⟨of_decide_eq_true rfl, fun h => nomatch h⟩
theorem calloteLine : Statement (.calloteLine) := ⟨of_decide_eq_true rfl, fun h => nomatch h⟩
theorem attestation : Statement (.attestation) := ⟨of_decide_eq_true rfl, fun h => nomatch h⟩
theorem certificateRead : Statement (.certificateRead) := ⟨of_decide_eq_true rfl, fun h => nomatch h⟩
theorem firmwareChunk : Statement (.firmwareChunk) := ⟨of_decide_eq_true rfl, fun h => nomatch h⟩
theorem firmwareCommit : Statement (.firmwareCommit) := ⟨of_decide_eq_true rfl, fun h => nomatch h⟩
theorem calloteLoad : Statement (.calloteLoad) := ⟨of_decide_eq_true rfl, fun h => nomatch h⟩
theorem calloteLaunch : Statement (.calloteLaunch) := ⟨of_decide_eq_true rfl, fun h => nomatch h⟩
theorem calloteBreak : Statement (.calloteBreak) := ⟨of_decide_eq_true rfl, fun h => nomatch h⟩
theorem calloteClear : Statement (.calloteClear) := ⟨of_decide_eq_true rfl, fun h => nomatch h⟩
theorem calloteRun : Statement (.calloteRun) := ⟨of_decide_eq_true rfl, fun h => nomatch h⟩
theorem calloteStep : Statement (.calloteStep) := ⟨of_decide_eq_true rfl, fun h => nomatch h⟩
theorem callotePrint : Statement (.callotePrint) := ⟨of_decide_eq_true rfl, fun h => nomatch h⟩
theorem callotePlace : Statement (.callotePlace) := ⟨of_decide_eq_true rfl, fun h => nomatch h⟩
theorem calloteCycle : Statement (.calloteCycle) := ⟨of_decide_eq_true rfl, fun h => nomatch h⟩
theorem calloteWatch : Statement (.calloteWatch) := ⟨of_decide_eq_true rfl, fun h => nomatch h⟩
theorem calloteGroup : Statement (.calloteGroup) := ⟨of_decide_eq_true rfl, fun h => nomatch h⟩
theorem calloteLat : Statement (.calloteLat) := ⟨of_decide_eq_true rfl, fun h => nomatch h⟩
theorem calloteEnqueue : Statement (.calloteEnqueue) := ⟨of_decide_eq_true rfl, fun h => nomatch h⟩
theorem calloteStart : Statement (.calloteStart) := ⟨of_decide_eq_true rfl, fun h => nomatch h⟩
theorem calloteInject : Statement (.calloteInject) := ⟨of_decide_eq_true rfl, fun h => nomatch h⟩
theorem injectDrift : Statement (.injectDrift) := ⟨of_decide_eq_true rfl, fun h => nomatch h⟩
theorem injectResidue : Statement (.injectResidue) := ⟨of_decide_eq_true rfl, fun h => nomatch h⟩
theorem injectDelay : Statement (.injectDelay) := ⟨of_decide_eq_true rfl, fun h => nomatch h⟩
theorem injectImem : Statement (.injectImem) := ⟨of_decide_eq_true rfl, fun h => nomatch h⟩
theorem standbyError : Statement (.standbyError) := ⟨of_decide_eq_true rfl, fun h => nomatch h⟩
theorem commandEnd : Statement (.commandEnd) := ⟨of_decide_eq_true rfl, fun h => nomatch h⟩
theorem fabricEnqueue : Statement (.fabricEnqueue) := ⟨of_decide_eq_true rfl, fun h => nomatch h⟩

end Sys2Proof.Laws.Encoding
end

