-- ==== Sys2Proof/Tests/Slice0.lean ====
section
/-! SUPPORT. Tests: ill-formed steps, words written out from the encodings of spec/, witnesses of the hypotheses of every statement, and a
few single steps whose results are worked out by hand from spec/. -/

namespace Sys2Proof.Tests

open Sys2Proof.Machine

set_option Elab.async false

/-! ### Small states -/

/-- The launch that the tests' contexts run: launch 1 of job 1. -/
def job1 : BitVec 64 := 0x0001000000000001

/-- The S registers of the tests' context. -/
def sRegs : SMap SVal :=
  [(1, ⟨0x4000, 0, false⟩), (2, ⟨0x100000000, 0, false⟩), (3, ⟨0x10000000000, 0, false⟩), (4, ⟨7, 0, false⟩), (5, ⟨0x40, 0, false⟩),
    (6, ⟨0x4000, 0, true⟩), (7, ⟨0xFFFFFFFFFFFFFFFF, 0, false⟩), (8, ⟨0xFFFFFFFFFFFFFFFE, 0, false⟩), (9, ⟨12, 0, false⟩),
    (10, ⟨0x100000021, 0, false⟩)]

/-- A context of that launch, at bundle 21. -/
def ctxOf (timed : Bool) : Ctx :=
  { Ctx.zero with
    regs := { Regs.zero with s := sRegs, budget := 100, spill := { Spill.zero with cfol := 1, depth := 1024 } }
    pc := 21, status := .ready, task := some ⟨job1, 5, timed, 0, 0⟩ }

/-- A codex of feed and push rows of format 0x21 (R143). -/
def codex : BitVec 512 :=
  BitVec.ofNat 512 (2 + 256 * 0x21 + 2 ^ 16 + 2 ^ 17 + 2 ^ 32 * 32 + 2 ^ 48 * 256 + 2 ^ 64 * 4 + 2 ^ 96 * 4 + 2 ^ 128 * 1024 + 2 ^ 256 * 2048)

/-- The array with five valid pipes and four courses of format 0x21. -/
def arrOf (grad : Bool) : Arr :=
  { Arr.zero with
    pipes := (List.range 5).map fun i => (i, { Pipe.zero with stride := 64, live := 2, cv := true, codex := codex })
    resid := (List.range 4).map fun i => (i, 0x21#6 ++ 0x10000#17), grad := grad }

/-- Pages of job 1 in the core's translation cache: the first of the gallery and the first of the stacks. -/
def pages : List Tlb :=
  [⟨1, pageOf 0x100000000, 2048, true, true, some job1⟩, ⟨1, pageOf 0x10000000000, 9, true, true, some job1⟩]

/-- A package in which context 0 of core 0 comes to issue. -/
def stateOf (timed grad : Bool) : State :=
  { State.reset with
    clock := 100, count := 96, turn := .ctx 0 0
    cores := [(0, { Core.zero with ctxs := [(0, ctxOf timed)], tlb := pages, arr := arrOf grad })]
    ports := [(0, { Port.zero with bound := some 1, core := 0 })]
    ctl := { State.reset.ctl with launches := [(job1.toNat, { launchZero with timed := true })] } }

/-- A free context, and a timed one. -/
def free : State := stateOf false false
def timed : State := stateOf true false

/-- A scalar port of the context holds a value. -/
def port (s : State) (f p v : Nat) : State := s.setRegs 0 0 ((s.ctx 0 0).regs.wrSP f p ⟨BitVec.ofNat 64 v, 0, false⟩)
/-- The context's own state changed. -/
def own (s : State) (f : Ctx → Ctx) : State := s.setCtx 0 0 (f (s.ctx 0 0))
/-- Its registers changed. -/
def regs (s : State) (f : Regs → Regs) : State := s.setRegs 0 0 (f (s.ctx 0 0).regs)
/-- Words of 64 bits stand in the carrel from an address. -/
def carrel (s : State) (a : Nat) (ws : List Nat) : State :=
  { s with mem := { s.mem with carrels := [(0, Store.write (s.mem.level 1 0)
      (ws.zipIdx.flatMap fun w => cellsOf (a + 8 * w.2) 8 w.1) [])] } }

/-! ### What a witness shows -/

/-- A row of an operation of a unit has all its hypotheses. -/
def UnitRuns (s : State) (i : Instr) (t : Instr → Option UnitRow) : Bool :=
  (t i).any fun r => decide (s.Trig 0 0 r.g r.x (trigCode r.unit r.code)) && decide ((s.env 0 0 0).Clear r.accs) &&
    (r.unit != 20 || !s.regionBeside 0 0) && !s.bursting 0 0 [r.unit] && r.ok
/-- A row of a scalar unit has all its hypotheses. -/
def ScalarRuns (s : State) (i : Instr) (t : Instr → Option ScalarRow) : Bool :=
  (t i).any fun r => decide (s.Trig 0 0 r.g r.x (trigCode r.unit r.code)) && (!r.a || (s.pS 0 0 r.unit 0).fine) &&
    (!r.b || (s.pS 0 0 r.unit 1).fine) && (s.src 0 0 r.x).fine
/-- A row of the control slot has all its hypotheses. -/
def ControlRuns (s : State) (i : Instr) (t : Instr → Option CtlRow) : Bool :=
  (t i).any fun r => decide (s.Slot 0 0 r.g) && ctlFieldsOk i && r.ok
/-- A row of the beat slot has all its hypotheses. -/
def BeatRuns (s : State) (i : Instr) (t : Instr → Option BeatRow) : Bool :=
  (t i).any fun r => decide (s.Slot 0 0 r.g) && !s.regionBeside 0 0 && decide ((s.env 0 0 0).Clear r.accs) && r.ok
/-! ### The scalar units -/

theorem witness_scalar_page_a : ([.add 0 4 0, .sub 0 4 1, .and 0 4 0, .or 0 4 1, .xor 0 4 0, .andn 0 4 1, .shl 0 4 0, .shr 0 4 1,
    .sar 0 4 0, .min 0 4 1, .max 0 4 0, .minu 0 4 1, .maxu 0 4 0, .sel 0 4 1, .pass 0 4 0, .hi 0 4 1] : List Instr).all
    (fun i => ScalarRuns free i scalarA) = true := by decide +kernel
theorem witness_scalar_page_b : ([.ceq 0 4 0, .cne 0 4 1, .clt 0 4 0, .cltu 0 4 1, .cle 0 4 0, .cleu 0 4 1, .clz 0 4 0, .ctz 0 4 1,
    .popc 0 4 0, .sx8 0 4 1, .sx16 0 4 0, .sx32 0 4 1, .zx32 0 4 0, .bext 0 4 1, .bins 0 4 0, .adds 0 4 1] : List Instr).all
    (fun i => ScalarRuns free i scalarB) = true := by decide +kernel
theorem witness_scalar_m : ([.mul 0 4, .mulh 0 4, .mulhu 0 4, .div 0 4, .divu 0 0, .rem 0 4, .remu 0 0, .mix 0 4] : List Instr).all
    (fun i => ScalarRuns free i scalarM) = true := by decide +kernel

/-! ### Loads, stores and exchanges -/

theorem witness_loads : ([.ld8 0 4, .ld8u 0 4, .ld16 0 1, .ld16u 0 1, .ld32 0 1, .ld32u 0 2, .ld64 0 3] : List Instr).all
    (fun i => UnitRuns free i (lscLoads free 0 0)) = true := by decide +kernel
theorem witness_stores : ([.st8 0 4, .st16 0 4, .st32 0 4, .st64 0 6] : List Instr).all
    (fun i => UnitRuns free i (lscStores free 0 0) && UnitRuns (port free 5 0 0x10000000000) i (lscStores (port free 5 0 0x10000000000) 0 0))
    = true := by decide +kernel
/-- The gallery folio at the base is claimed by the context's core. -/
def claiming : State := { port timed 5 0 0x100000000 with claims := [(0x40000, ⟨0, [job1]⟩)] }
theorem witness_gallery_stores : ([.st8 0 4, .st16 0 4, .st32 0 4, .st64 0 6] : List Instr).all
    (fun i => UnitRuns (port timed 5 0 0x100000000) i (lscGalleryStores (port timed 5 0 0x100000000) 0 0) &&
      UnitRuns claiming i (lscGalleryStores claiming 0 0)) = true := by decide +kernel

/-- A context whose ldlive has its reads: a count of 9 against a bound of 4 that may be passed. -/
def liveRead : State := own free fun y => { y with ldl := some ⟨0, some (9, none), some (BitVec.ofNat 512 (4 * 2 ^ 96 + 2 ^ 16), none)⟩ }
theorem witness_cas_and_live :
    (UnitRuns free (.cas 0 4) (lscOthers free 0 0) && UnitRuns liveRead (.ldlive 0 5) (lscOthers liveRead 0 0)) = true := by
  decide +kernel
theorem witness_vector_loads : ([.vld 0 1 0, .vldp 0 1 1, .vlds 0 2 0, .vldb 0 3 1, .vgat 0 4 0] : List Instr).all
    (fun i => UnitRuns free i (lvLoads free 0 0)) = true := by decide +kernel
theorem witness_vector_stores : ([.vst 0 1 0, .vstp 0 2 1, .vsts 0 1 0, .vsct 0 4 1] : List Instr).all
    (fun i => UnitRuns timed i (lvStores timed 0 0)) = true := by decide +kernel
theorem witness_bursts : (UnitRuns (port free 6 1 2) (.vspl 0 4 0) (lvBursts (port free 6 1 2) 0 0) &&
    UnitRuns (port free 7 1 2) (.vfil 0 4 1) (lvBursts (port free 7 1 2) 0 0)) = true := by decide +kernel

/-- Two blank folios: both marks are 0xFFFFFFFF. -/
def marks : State := port (port free 16 1 0xFFFFFFFF) 16 2 0xFFFFFFFF
theorem witness_exchanges : ([.xch 0 1, .xchc 0 1, .xchl 0 1, .xchlc 0 2] : List Instr).all
    (fun i => UnitRuns marks i (exchanges marks 0 0)) = true := by decide +kernel
theorem witness_folios : ([.mark 0 1, .vac 0 2, .setm 0 2, .xst 0 0] : List Instr).all
    (fun i => UnitRuns free i (folioOps free 0 0)) = true := by decide +kernel

/-! ### The vector units -/

theorem witness_va_float : ([.fadd 0 0x41 0, .fsub 0 0x41 1, .fmul 0 0x41 0, .ffma 0 0x41 1, .fmin 0 0x41 0, .fmax 0 0x41 1, .fabs 0 0x41 0,
    .fneg 0 0x41 1, .fcmp 0 0x41 0, .fcvti 0 0x41 1, .icvtf 0 0x41 0, .fsel 0 0x41 1, .frnd 0 0x41 0] : List Instr).all
    (fun i => UnitRuns free i (vaFloat free 0 0)) = true := by decide +kernel
theorem witness_va_integer : ([.iadd 0 0x41 0, .isub 0 0x41 1, .imul 0 0x41 0, .vand 0 0x41 1, .vor 0 0x41 0, .vxor 0 0x41 1, .vshl 0 0x41 0,
    .vshr 0 0x41 1, .vsar 0 0x41 0, .imin 0 0x41 1, .imax 0 0x41 0, .icmp 0 0x41 1] : List Instr).all
    (fun i => UnitRuns free i (vaInteger free 0 0)) = true := by decide +kernel
theorem witness_va_lanes : ([.lbc 0 0x41 0, .lperm 0 0x41 1, .xcl 0 0x41 0, .lred 0 0x41 1] : List Instr).all
    (fun i => UnitRuns free i (vaLanes free 0 0)) = true := by decide +kernel
theorem witness_triad : UnitRuns free (.vtTri 0 0x41 3) (triad free 0 0) = true := by decide +kernel
theorem witness_vs : ([.rcpa 0 0x41, .rsqa 0 0x41, .rcpn 0 0x41, .rsqn 0 0x41, .exp2a 0 0x41, .log2a 0 0x41, .fsqrt 0 0x41, .fdiv 0 0x41,
    .fscl 0 0x41, .fexp 0 0x41] : List Instr).all (fun i => UnitRuns free i (vsRows free 0 0)) = true := by decide +kernel

/-- Port c of vq names a format. -/
def format (n : Nat) : State := port free 14 2 n
theorem witness_vq : ([(.bmax 0 0x41, 0x21), (.qnt 0 0x41, 0x21), (.dqt 0 0x41, 0x21), (.cvb 0 0x41, 0), (.cvf 0 0x41, 1), (.cvsb 0 0x41, 0),
    (.cvub 0 0x41, 0), (.fret 0 0x41, 0), (.pack 0 0x41, 4), (.unpk 0 0x41, 1), (.vtag 0 0x41, 2)] : List (Instr × Nat)).all
    (fun q => UnitRuns (format q.2) q.1 (vqRows (format q.2) 0 0)) = true := by decide +kernel

/-! ### Engines, the network, the array and the system unit -/

/-- Blocks of the five commands in the carrel (R235 to R239), of arm and bcst, and a mask of core 0 (R190, R191). -/
def blocks : State :=
  carrel free 0x1000
    [0x10000000000, 0x0000000100000001, 0x10000000100, 0x10000000180, 0x10000000200, 0x0000000400000004, 0, 0,
      0x10000000000, 0x0000000100000000, 0x0000000000000001, 0x10000000200, 0, 0, 0, 0,
      0x10000000000, 0x0001000100000001, 0x0000004000000004, 0x10000000200, 0, 0, 0, 0,
      0x10000000000, 0x0000000000000001, 0x10000000100, 0x10000000200, 0, 0, 0, 0,
      0x100000000, 0x0000000100000001, 0x100000100, 1, 0x100000200, 0, 0, 0,
      0x0000000100000000, 0x0000000000000200, 0x0000001000000000, 0, 1, 0, 0, 0, 1, 0, 0, 0, 0, 0, 0, 0]
theorem witness_commands : ([(.sidx 0 0, 0x1000), (.sred 0 0, 0x1040), (.stopk 0 0, 0x1080), (.rpfx 0 0, 0x10C0), (.rprm 0 0, 0x1100)] :
    List (Instr × Nat)).all (fun q => UnitRuns (port blocks 17 0 q.2) q.1 (commands (port blocks 17 0 q.2) 0 0)) = true := by decide +kernel
theorem witness_engine_others : ([(.bcst 0 0, 0x1150), (.arm 0 0, 0x1140), (.ecnt 0 4, 0)] : List (Instr × Nat)).all
    (fun q => UnitRuns (port (port blocks 17 0 q.2) 17 2 0x1180) q.1 (engineOthers (port (port blocks 17 0 q.2) 17 2 0x1180) 0 0)) = true := by
  decide +kernel

/-- Port a of nu names a target in the gallery. -/
def target : State := port free 18 0 0x100000040
theorem witness_reductions : ([.radd 0 4, .rmin 0 4, .rmax 0 4, .rand 0 4, .ror 0 4, .rxor 0 4, .rfadd 0 4, .rclr 0 2] : List Instr).all
    (fun i => UnitRuns target i (reductions target 0 0)) = true := by decide +kernel
theorem witness_reads : ([0, 1, 2] : List Nat).all
    (fun n => UnitRuns (port free 18 2 n) (.rrd 0 2) (readTarget (port free 18 2 n) 0 0)) = true := by decide +kernel
theorem witness_dratrix : ([.send 0 0, .recv 0 0] : List Instr).all (fun i => UnitRuns timed i (dratrix timed 0 0)) = true := by decide +kernel

/-- A message of core 2 waits. -/
def mailed : State := own free fun y => { y with mailbox := [⟨1, 2, 3, 50⟩] }
theorem witness_messages : ([.sendb 0 4, .recvb 0 4] : List Instr).all
    (fun i => UnitRuns free i (messages free 0 0) && UnitRuns mailed i (messages mailed 0 0)) = true := by decide +kernel
theorem witness_mx_sets : ([.fbase 0 1, .fstr 0 5, .fprog 0 0, .pbase 0 1, .pstr 0 5, .anch 0 4, .resid 0 4] : List Instr).all
    (fun i => UnitRuns free i (mxSets free 0 0)) = true := by decide +kernel
theorem witness_mx_others : ([.fcdx 0 5, .live 0 4, .live 0 0, .sfst 0 4, .gmode 0 4, .mxst 0 4] : List Instr).all
    (fun i => UnitRuns free i (mxOthers free 0 0)) = true := by decide +kernel
theorem witness_sy : ([.trecRead 0 4, .budg 0 4, .gcyc 0 4, .ctx 0 4, .trld 0 4, .sbase 0 2, .seed 0 4, .lparm 0 4] : List Instr).all
    (fun i => UnitRuns free i (syRows free 0 0)) = true := by decide +kernel

/-! ### The control slot and the beat slot -/

theorem witness_branches : ([.nop 0, .limm 0 5, .limmh 0 5, .br 0 0x3FFB, .jmpi 0 4, .brnone 0 6, .brany 0 6, .call 0 1 8, .calli 0 4 1,
    .ret 0 4] : List Instr).all (fun i => ControlRuns free i (branches free 0 0)) = true := by decide +kernel

/-- One loop level is open, with its end at bundle 40, and one mask is pushed. -/
def looped : State :=
  regs free fun r => { r with loops := [(0, ⟨3, 1, true, true, 1, 4, 40⟩)], depth := 1, masks := [0xFF], m := [(1, 0xF0)] }
theorem witness_loops : ([.loop 0 0 4 20 0 0, .loopi 0 0 0 20 2 1, .loopi 0 0 3 1 2 1] : List Instr).all
    (fun i => ControlRuns free i (loopOps free 0 0)) = true := by decide +kernel
theorem witness_loops_inside : ([.loop 0 1 0 19 0 0, .loopi 0 1 2 19 0 0, .brk 0 0] : List Instr).all
    (fun i => ControlRuns looped i (loopOps looped 0 0)) = true := by decide +kernel
theorem witness_masks : ([.mpush 0 1, .mpop 0, .minv 0 1, .minvElse 0] : List Instr).all
    (fun i => ControlRuns looped i (maskOps looped 0 0)) = true := by decide +kernel
theorem witness_waits : ([.waitEng 0 1 4, .waitArr 0 1, .waitXcnt 0 4, .waitWeq 0 1 4, .waitWne 0 1 4, .waitc 0 4, .yield 0, .cfence 0,
    .sfenceAcq 0, .sfenceRel 0, .sfenceAcqRel 0] : List Instr).all (fun i => ControlRuns free i (waitOps free 0 0)) = true := by decide +kernel
/-- Context 0 waits in a clock in which nothing is left to do; the count is 96, and 111 for a carrel word. -/
def waits (w : Wait) (count : Nat) (f : Ctx → Ctx) : State :=
  { own free fun y => f { y with status := .waiting w, readyAt := 90 } with turn := .idle, count := BitVec.ofNat 64 count }
theorem witness_wait_ends : ([(.eng 2 0, 96, true), (.eng 2 1, 96, false), (.arr 1, 96, false), (.xcnt 0, 96, true), (.weq 0x4000 0, 111, true),
    (.weq 0x4000 0, 96, false), (.wne 0x4000 0, 111, false)] : List (Wait × Nat × Bool)).all (fun q =>
      let s := waits q.1 q.2.1 id
      (s.ctx 0 0).status == .waiting q.1 && s.pick.isNone && !s.saving 0 0 && s.gs.tune != 3 && q.1.checked &&
        decide ((s.ctx 0 0).readyAt ≤ s.clock) && s.met 0 0 q.1 == q.2.2) = true := by decide +kernel
theorem witness_wait_early : (let s := waits (.xcnt 0) 96 fun y => { y with readyAt := 101 }
    s.pick.isNone && decide (s.clock < (s.ctx 0 0).readyAt)) = true := by decide +kernel
theorem witness_wait_over : ([(.waitc 97, true), (.waitc 98, false), (.untilPos 97, true), (.carrel, true), (.hbm true true 5, true)] :
    List (Wait × Bool)).all (fun q =>
      let s := waits q.1 96 id
      s.pick.isNone && !q.1.checked && match step s with
        | .next t => t.over 0 0 q.1 == q.2 && decide ((s.ctx 0 0).readyAt ≤ t.clock)
        | _ => false) = true := by decide +kernel
theorem witness_waits_timed : ([.waitc 0 4, .yield 0, .cfence 0] : List Instr).all
    (fun i => ControlRuns timed i (waitOps timed 0 0)) = true := by decide +kernel
theorem witness_services : ([.tune 0, .sysc 0 1, .halt 0, .ckend 0] : List Instr).all
    (fun i => ControlRuns free i (systemOps free 0 0) && ControlRuns timed i (systemOps timed 0 0)) = true := by decide +kernel

/-- The context's launch runs a timed directive. -/
def withTimed (s : State) : State :=
  { s with
    out := { s.out with images := [⟨0, [{ kernelZero with ctxs := [⟨0, true, 0, 0, 0⟩] }], [], false, 0, []⟩] }
    ctl := { s.ctl with launches := [(job1.toNat, { launchZero with timed := true, tasks := 1 })] } }
theorem witness_phases : ([.phaseLaunch 0 256, .phaseGroup 0 512] : List Instr).all
    (fun i => ControlRuns (withTimed free) i (systemOps (withTimed free) 0 0) &&
      ControlRuns (withTimed timed) i (systemOps (withTimed timed) 0 0)) = true := by decide +kernel

/-- The array in gradient mode. -/
def gradient : State := stateOf false true
theorem witness_beats : ([.push 0 1 3, .feed 0 1 17 1, .feedAbsd 0 1 17 0, .feedCmps 0 1 17 0, .drain 0 17, .clr 0 17] : List Instr).all
    (fun i => BeatRuns free i (beats free 0 0)) = true := by decide +kernel
theorem witness_gradient_beats : ([.gfeed 0 1, .gdrain 0 1 5, .gclr 0 1, .drain 0 3] : List Instr).all
    (fun i => BeatRuns gradient i (beats gradient 0 0)) = true := by decide +kernel

/-! ### Checkpoint regions -/

/-- S1 and S2 change places, under Q0 (R29); the same with CK. -/
def swap : BitVec 256 := (moveWord 0 1 2).setWidth 256 ||| ((moveWord 0 2 1).setWidth 256 <<< 24)
def swapCk : BitVec 256 := swap ||| (1 <<< 255)

/-- The context stands in a region that it opened at bundle 9, five cycles ago, with an undo log. -/
def inside (s : State) (undo : List Undo) : State :=
  own s fun y => { y with region := { Region.zero with
    isOpen := true, startPos := s.pos y - 5, start := 9, undo := undo, snap := some (y.regs, (s.core 0).arr, []), bundles := 3, sig := 77
    detectPos := 94, detectClock := 97 } }
/-- Its reruns. -/
def rerunning (s : State) (n : Nat) : State := own s fun y => { y with region := { y.region with stage := n } }
/-- A feed of the context is in flight. -/
def fed (s : State) : State := { s with agenda := [⟨500, false, 0, 0, 0, false, 500, 13, false, .feedSum 17 0 true []⟩] }
theorem witness_region_ends : ([free, timed].all fun s => ([0, 1, 2] : List Nat).all fun n =>
    let u := rerunning (inside s [.part 4 5 true]) n
    decide (u.Inside 0 0) && (u.ctx 0 0).regBad == [] && (u.ctx 0 0).regs.rdQ 0 && decide (u.regionCyc (u.ctx 0 0) < 4096) &&
      (u.ctx 0 0).region.stage == n && (u.ctx 0 0).region.snap.isSome && !u.ownBeats 0 0 &&
      decide ((fed u).Inside 0 0) && decide ((fed u).regionCyc ((fed u).ctx 0 0) < 4096) && (fed u).ownBeats 0 0) = true := by decide +kernel
/-- A rerun whose CK bundle has not issued again. -/
theorem witness_rerun_begins : (let u := own (rerunning (inside timed []) 2) fun y =>
      { y with region := { y.region with bundles := 0, startPos := 0 } }
    decide (u.Inside 0 0) && (u.ctx 0 0).region.stage == 2 && (u.ctx 0 0).region.bundles == 0) = true := by decide +kernel
/-- S1 has an error, and the undo log holds a part twice and a folio's mark. -/
def damaged (s : State) : State :=
  own (inside s [.part 4 5 true, .mark 0 7 false, .part 16 77 false, .part 4 9 false]) fun y => { y with regBad := [1] }
theorem witness_rollback : ([free, timed].all fun s =>
    decide ((damaged s).Inside 0 0) && ((damaged s).ctx 0 0).region.stage == 0 &&
      decide ((damaged s).regionCyc ((damaged s).ctx 0 0) < 4096) && moveFits 1 2 && (dstClass 2).isSome &&
      ((damaged s).ctx 0 0).regBad.contains (((damaged s).env 0 0 0).physical 1) && ((damaged s).ctx 0 0).region.snap.isSome &&
      (damaged s).memOk) = true := by decide +kernel

/-- The conditions on a row of a unit in a region. -/
def Within (s : State) (r : UnitRow) : Bool :=
  decide (s.First 0 0) && (s.ctx 0 0).regs.rdQ r.g.toNat && srcOk (busOf (trigCode r.unit r.code)) r.x && r.x != 0x300#10 && r.x != 0x302#10 &&
    decide ((s.env 0 0 0).Clear r.accs) && (r.unit != 20 || !s.regionBeside 0 0) && !s.bursting 0 0 [r.unit] && r.ok
/-- An operation that its region forbids has all its hypotheses. -/
def Forbidden (s : State) (i : Instr) : Bool :=
  let u := s.unregioned 0 0
  (forbiddenRows u 0 0 i).any (Within s) || (lscGalleryStores u 0 0 i).any (Within s) ||
    (placedRows u 0 0 i).any fun r => (neverFits i || r.accs.any fun a => lvlOf a.va != some 1) && Within s r
theorem witness_forbidden : ([.ecnt 0 4, .rrd 0 2, .sendb 0 4, .recvb 0 4, .gmode 0 4, .gcyc 0 4, .ld32 0 2, .ld64 0 3, .vac 0 2] : List Instr).all
    (fun i => Forbidden (inside free []) i) = true := by decide +kernel
theorem witness_forbidden_others : ([(blocks, 17, 0x1000, .sidx 0 0), (target, 18, 0x100000040, .radd 0 4), (marks, 16, 0, .xch 0 1),
    (free, 5, 0x10000000000, .st8 0 4), (timed, 5, 0x100000000, .st8 0 4), (timed, 18, 0, .recv 0 0), (timed, 18, 0, .send 0 0)] : List (State × Nat × Nat × Instr)).all
    (fun q => Forbidden (inside (port q.1 q.2.1 0 q.2.2.1) []) q.2.2.2) = true := by decide +kernel
theorem witness_forbidden_beats : ([.push 0 1 3] : List Instr).all (fun i =>
    let s := inside free []
    (beats (s.unregioned 0 0) 0 0 i).any fun r => isPush i && decide (s.First 0 0) && (s.ctx 0 0).regs.rdQ r.g.toNat && !s.regionBeside 0 0 &&
      decide ((s.env 0 0 0).Clear r.accs) && r.ok) = true := by decide +kernel
theorem witness_forbidden_control : ([.waitEng 0 1 4, .waitArr 0 1, .waitXcnt 0 4, .waitWeq 0 1 4, .waitWne 0 1 4, .waitc 0 4, .tune 0, .sysc 0 1,
    .halt 0, .trap 0 7, .phaseLaunch 0 256, .phaseGroup 0 512] : List Instr).all (fun i =>
    let s := inside (withTimed free) []
    (forbiddenCtl (s.unregioned 0 0) 0 0 i).any fun r => decide (s.First 0 0) && (s.ctx 0 0).regs.rdQ r.g.toNat && ctlFieldsOk i && r.ok) = true := by
  decide +kernel
/-- A region that has been open for 4,096 cycles. -/
def overdue : State := own (inside { free with count := 5000 } []) fun y => { y with region := { y.region with startPos := 904 } }
theorem witness_region_bundles : (let s := inside free []
    decide (s.First 0 0) && moveFits 0x302 4 && (dstClass 4).isSome && bundleCk swapCk && s.onlyMoves 0 0 swapCk &&
      !(s.ctx 0 0).regs.rdQ 3 && decide (overdue.Inside 0 0) && (overdue.ctx 0 0).region.stage == 0 &&
      decide (4096 ≤ overdue.regionCyc (overdue.ctx 0 0)) && !(overdue.ctx 0 0).regs.rdQ 3) = true := by decide +kernel
theorem witness_region_scalars : ([.add 0 4 0, .ceq 0 4 1, .mul 0 4] : List Instr).all (fun i =>
    let s := inside free []
    decide (s.First 0 0) && ((scalarA i).or <| (scalarB i).or (scalarM i)).any fun r => (s.pS 0 0 r.unit 0).fine && (s.pS 0 0 r.unit 1).fine &&
      (s.src 0 0 r.x).fine && srcOk true r.x && r.x != 0x300#10 && r.x != 0x302#10) = true := by decide +kernel
/-- A region of a context that has the reads of its ldlive; and one whose array is in the gradient mode. -/
theorem witness_region_rows : ([(free, .ld8 0 4), (free, .ld64 0 1), (free, .vld 0 1 0), (free, .vldp 0 1 1), (liveRead, .ldlive 0 5), (free, .mark 0 1),
    (free, .xst 0 0), (free, .fadd 0 0x41 0), (free, .iadd 0 0x41 0), (free, .lbc 0 0x41 0), (free, .vtTri 0 0x41 3), (free, .rcpa 0 0x41),
    (format 4, .pack 0 0x41), (free, .fbase 0 1), (free, .fcdx 0 5), (free, .sfst 0 4), (free, .budg 0 4), (free, .seed 0 4)] :
    List (State × Instr)).all (fun q => (regionRows (inside q.1 []) 0 0 q.2).any (Within (inside q.1 []))) = true := by decide +kernel
theorem witness_region_beats : ([(false, .feed 0 2 17 1), (false, .drain 0 1), (false, .clr 0 1), (true, .gfeed 0 1), (true, .gdrain 0 3 200)] :
    List (Bool × Instr)).all (fun q =>
    let s := inside (stateOf false q.1) []
    (beats s 0 0 q.2).any fun r => !isPush q.2 && decide (s.First 0 0) && (s.ctx 0 0).regs.rdQ r.g.toNat && !s.regionBeside 0 0 &&
      decide ((s.env 0 0 0).Clear r.accs) && r.ok) = true := by decide +kernel
theorem witness_region_control : ([.nop 0, .br 0 8, .call 0 1 8, .loopi 0 0 3 1 2 1, .mpush 0 1, .yield 0, .cfence 0, .sfenceAcq 0, .sfenceRel 0,
    .sfenceAcqRel 0] : List Instr).all (fun i =>
    let s := inside free []
    (regionCtl s 0 0 i).any fun r => decide (s.First 0 0) && (s.ctx 0 0).regs.rdQ r.g.toNat && ctlFieldsOk i && r.ok) = true := by
  decide +kernel
/-- An undo log of 511 parts. -/
def crowded (s : State) : State := inside s ((List.range 511).map fun i => .part (2048 + i) 0 false)
theorem witness_region_stores : ([(free, .st8 0 4), (free, .st64 0 6), (free, .cas 0 4), (marks, .xchl 0 1), (marks, .xchlc 0 1),
    (port free 6 1 2, .vspl 0 4 0), (port free 7 1 2, .vfil 0 4 1), (free, .vst 0 1 0), (free, .vstp 0 1 1), (free, .vsts 0 1 0),
    (free, .vsct 0 4 1)] : List (State × Instr)).all (fun q => [inside q.1 [], crowded q.1].all fun s =>
      (loggedRows s 0 0 q.2).any fun p =>
        let u := s.logged 0 0 p.parts
        (loggedRows u 0 0 q.2).any fun r => Within s r.row && r.row.accs.all fun a => lvlOf a.va == some 1) = true := by decide +kernel
theorem witness_log_full : (let s := crowded (port free 6 1 2)
    (loggedRows s 0 0 (.vspl 0 4 0)).any fun p => decide (512 < ((s.logged 0 0 p.parts).ctx 0 0).region.undo.length)) = true := by
  decide +kernel
/-- A setm of a carrel folio in a region, with room in the log; with 512 parts there. -/
theorem witness_region_setm : ([512, 511].all fun n =>
    let s := inside free ((List.range n).map fun i => .part (2048 + i) 0 false)
    let u := s.loggedMark 0 0 (folioOps.at_ s 0 0 1).pa
    (folioOps.at_ s 0 0 1).lvl == 1 && (folioOps u 0 0 (.setm 0 1)).any (Within s) &&
      (u.ctx 0 0).region.undo.length == n + 1) = true := by decide +kernel

/-! ### Whole bundles and traps -/

/-- Context 0 of core 0 comes to issue. -/
theorem witness_issues : (decide (free.Issues 0 0) && decide (timed.Issues 0 0)) = true := by decide +kernel
/-- An add, a branch, a beat, an exchange and transfers under a false guard, Q3; the region of `inside` has the same registers. -/
theorem witness_false_guard : ([.add 3 4 0, .br 3 8, .drain 3 1, .xchc 3 1, .halt 3, .move 3 1 2, .limm 3 4, .send 3 4, .recv 3 0] : List Instr).all (fun i =>
    WellFormed i && (bundleOf i).isSome && guardOf i == some 3 && !(free.ctx 0 0).regs.rdQ 3) = true := by decide +kernel
/-- Moves into S, V, Q, M and ports, from registers, latches, literals and specials. -/
theorem witness_moves : ([(4, 0x005), (0x205, 0x005), (0x302, 0x005), (0x41, 0x042), (4, 0x081), (0x41, 0x0C1), (4, 0x110), (0x41, 0x140),
    (6, 0x007), (4, 0x000), (4, 0x080), (0x301, 0x043)] : List (BitVec 10 × BitVec 10)).all (fun q =>
    moveFits q.1 q.2 && (dstClass q.2).isSome && free.moveClean 0 0 q.1 q.2) = true := by decide +kernel

/-- Every kind of source of R24 has a value on its buses: registers, latches, literals, the specials. -/
theorem witness_buses : (([0, 4, 0x3F, 0x80, 0x8F, 0x100, 0x129, 0x200, 0x27F, 0x280, 0x2FF, 0x301, 0x302, 0x303, 0x304, 0x305, 0x306, 0x30B, 0x30C,
    0x30D] : List (BitVec 10)).all (fun x => (free.scalarBus 0 0 x).isSome && (free.vectorBus 0 0 x).isSome) &&
    ([0x40, 0x7F, 0xC0, 0xC7, 0x130, 0x140] : List (BitVec 10)).all fun x =>
      (free.scalarBus 0 0 x).isNone && (free.vectorBus 0 0 x).isSome) = true := by decide +kernel
/-- A long immediate that goes to S5 and, splat, to V2, with limm and with limmh. -/
def long (i : Instr) : BitVec 256 :=
  bundleOfMove (moveWord 0 0x300 5) ||| bundleOfMove (moveWord 0 0x300 0x42) ||| bundleOfCtl ((ctlOf i).getD 0)
theorem witness_long : ([.limm 0 0x3FFFFF, .limmh 3 0x4000] : List Instr).all (fun i =>
    !bundleCk (long i) && (bundleOfWord (long i)).bad == 0 && (longOf i).isSome && ctlOf i == some (bundleCtl (long i)) &&
    beatNop (bundleBeat (long i)) && (bundleOfWord (long i)).mvs.length == 2 &&
    (bundleOfWord (long i)).mvs.all fun m => m.src == 0x300#10 && decide (m.dst.toNat < 0x80)) = true := by decide +kernel

theorem witness_bundle : (!bundleCk swap && free.onlyMoves 0 0 swap) = true := by decide +kernel
theorem witness_checkpoint : (bundleCk swapCk && timed.onlyMoves 0 0 swapCk && ((timed.moves 0 0 swapCk).all fun m => m.src != 0x302#10) &&
    !timed.busy 0 0 && !timed.beatsInFlight 0 && free.onlyMoves 0 0 swapCk && !free.busy 0 0) = true := by decide +kernel
/-- The word 0x01_1140 in slot 2 writes a vector port from a scalar bus: mask 0x004 (02_bundles). -/
theorem witness_illegal : ((bundleOfWord (0x011140 <<< 48)).bad == 0x004 && decide (free.Reaches 0 0) && !bundleCk (0x011140 <<< 48) &&
    (bundleOfWord (0x011140 <<< 48 ||| 1 <<< 255)).bad != 0) = true := by decide +kernel
/-- The budget is exhausted. -/
def spent : State := regs free fun r => { r with budget := 0 }
theorem witness_budget : (decide (spent.Reaches 0 0) && !bundleCk swap && (bundleOfWord swap).bad == 0 &&
    (bundleEnv spent 0 0 (bundleOfWord swap)).illegalNow (bundleOfWord swap) == 0 && (spent.ctx 0 0).regs.budget == 0 &&
    (bundleOfWord swapCk).bad == 0 && ([.add 0 4 0, .br 0 8, .drain 0 1, .xchc 3 1] : List Instr).all fun i => WellFormed i &&
      (bundleOf i).any fun b => (bundleOfWord b).bad == 0 && (bundleEnv spent 0 0 (bundleOfWord b)).illegalNow (bundleOfWord b) == 0) = true := by
  decide +kernel
/-- A context with a trap vector, so that it takes an overflow of the mask stack itself, and not a budget trap. -/
def vectored : State := own free fun y => { y with trapVec := 0x2010 }
theorem witness_taking : (!(trapOf 7 0 0).supervisor && (vectored.ctx 0 0).trapVec.getLsbD 13 && !(vectored.ctx 0 0).record.valid &&
    (trapOf 0x13 0 0).supervisor) = true := by decide +kernel
/-- A context in a trap handler: a record of an overflow at bundle 9. -/
def handling : State := own free fun y => { y with record := ⟨true, [(0, 0x1C012009)]⟩ }
theorem witness_returns : ([(.trecResume 0 0x2FF, false), (.trecSkip 0 0x2FE, true)] : List (Instr × Bool)).all (fun q =>
    decide (handling.Trig 0 0 0 0x2FF 0x350) && decide (handling.Trig 0 0 0 0x2FE 0x350) && (handling.ctx 0 0).record.valid &&
    !(free.ctx 0 0).record.valid && decide (free.Trig 0 0 0 0x2FF 0x350) && decide (free.Trig 0 0 0 0x2FE 0x350) &&
    (if q.2 then (free.src 0 0 0x2FE).val == BitVec.allOnes 64 - 1 else (free.src 0 0 0x2FF).val == BitVec.allOnes 64)) = true := by
  decide +kernel
/-- A misaligned load (reason 1), a load past the carrel (reason 0), and a store to a page without a pinned entry (reason 3). -/
theorem witness_failed_access : ([(free, .ld32 0 4, 7, false), (port free 5 0 0x200000, .ld8 0 0, 0x200000, false),
    (port timed 5 0 0x100200000, .st64 0 4, 0x100200000, true)] : List (State × Instr × Nat × Bool)).all (fun q =>
    let n := match lscAccess q.2.1 with | some r => r.2.2.2.1 | none => 0
    (match lscAccess q.2.1 with | some r => decide (q.1.Trig 0 0 r.1 r.2.1 (trigCode 5 r.2.2.1)) | none => false) &&
    decide ((q.1.env 0 0 0).Clear [⟨q.2.2.1, n, q.2.2.2, true⟩]) &&
    !((q.1.env 0 0 0).access (BitVec.ofNat 64 q.2.2.1) n n (!q.2.2.2) q.2.2.2).isOk) = true := by decide +kernel
/-- The faults of lsc from its addresses: misaligned (1), past the carrel (0), no pinned entry (3), an absent page (4, once a walk has found
none), no right (5), another core's claim. -/
def denied : State := (timed.setCore 0 { timed.core 0 with tlb := [⟨1, pageOf 0x100000000, 2048, true, false, some job1⟩] })
def claimedBy7 : State := { timed with claims := [(0x40000, ⟨7, [job1]⟩)] }
def absent : State := own free fun y => { y with walkBad := some (pageOf 0x100200000) }
theorem witness_lsc_faults : ([(free, .ld32 0 4, 0, trapXlat 7 1), (free, .ld8 0 0, 0x200000, trapXlat 0x200000 0),
    (timed, .ld64 0 0, 0x100200000, trapXlat 0x100200000 3), (absent, .ld64 0 0, 0x100200000, trapXlat 0x100200000 4),
    (denied, .st16 0 4, 0x100000040, trapXlat 0x100000040 5), (claimedBy7, .ld32 0 0, 0x100000040, trapClaim 0x100000040 7)] :
    List (State × Instr × Nat × Trap)).all (fun q =>
    let s := port q.1 5 0 q.2.2.1
    (lscAccess q.2.1).any fun r =>
      let ea := (s.pS 0 0 5 0).val + if r.2.2.2.2 then (s.pS 0 0 5 1).val else (s.src 0 0 r.2.1).val
      decide (s.Trig 0 0 r.1 r.2.1 (trigCode 5 r.2.2.1)) && decide ((s.env 0 0 0).Clear [⟨ea.toNat, r.2.2.2.1, r.2.2.2.2, true⟩]) &&
        (lscFault s 0 0 ea r.2.2.2.1 r.2.2.2.2).map (fun t => (t.cls, t.w1, t.w2)) == some (q.2.2.2.cls, q.2.2.2.w1, q.2.2.2.w2)) = true := by
  decide +kernel
/-- The faults of lanes: past the carrel (0), misaligned (1), two levels (2: lane 0 in the carrel and lane 1 in the
gallery), no pinned entry (3), no right (5), another core's claim. -/
theorem witness_lane_faults : ([(free, .vld 0 0 0, 0x1FFFF0, 0, trapXlat 0x200000 0), (free, .vst 0 4 0, 0, 0, trapXlat 7 1),
    (own free fun y => { y with regs := { y.regs with masks := [3] } }, .vsts 0 0 0, 0x1000, 0x100000000, trapXlat 0x1000 2),
    (timed, .vld 0 0 1, 0x100200000, 0, trapXlat 0x100200000 3), (denied, .vst 0 0 0, 0x100000040, 0, trapXlat 0x100000040 5),
    (claimedBy7, .vldb 0 0 1, 0x100000040, 0, trapClaim 0x100000040 7)] : List (State × Instr × Nat × Nat × Trap)).all (fun q =>
    let s := port (port (port (port q.1 6 0 q.2.2.1) 6 1 q.2.2.2.1) 7 0 q.2.2.1) 7 1 q.2.2.2.1
    (lvAccess s 0 0 q.2.1).any fun r =>
      decide (s.Trig 0 0 r.g r.x (trigCode r.unit r.code)) && decide ((s.env 0 0 0).Clear (lanesAcc r.addr r.act r.st)) &&
        !s.bursting 0 0 [r.unit] && r.ok &&
        (laneFault s 0 0 r).map (fun t => (t.cls, t.w1, t.w2)) == some (q.2.2.2.2.cls, q.2.2.2.2.w1, q.2.2.2.2.w2)) = true := by
  decide +kernel
/-- S6 is poisoned; port a is. -/
theorem witness_poison : (decide (free.Trig 0 0 0 6 (trigCode 0 0)) && (free.src 0 0 6).poison &&
    ((regs free fun r => r.wrSP 0 0 ⟨0, 0, true⟩).pS 0 0 0 0).poison) = true := by decide +kernel
/-- V1 is tagged i32. -/
def tagged : State := regs free fun r => r.wrV 1 ⟨0, 1, 0, false, false⟩
theorem witness_tag : ([.fadd 0 0x41 0, .fsub 0 0x41 1, .fmul 0 0x41 0, .fmin 0 0x41 0, .fmax 0 0x41 0] : List Instr).all (fun i =>
    match floatPairs i with
    | some q => decide (tagged.Trig 0 0 q.1 q.2.1 (trigCode (8 + 2 * q.2.2.1.toNat) q.2.2.2)) && (tagged.vsrc 0 0 q.2.1).tag == 1
    | none => false) = true := by decide +kernel

/-! ### The control cores -/

/-- Control core 0 is about to execute; x5 is 0, x6 a launch's name, x7 an aligned place of SRAM, x8 1 and x9 16. -/
def cc : State :=
  { free with
    turn := .cc 0
    ctl := { free.ctl with
      ccs := [(0, { CC.zero with active := true, stopped := false, imemSize := 0x1000, csr := [(0x305, 0x100)], trapq := [(0, 1)]
                                 x := [(6, job1), (7, 0x40000040), (8, 1), (9, 16)] })] } }
/-- The same in user mode. -/
def ccUser : State := cc.setCC 0 { cc.cc 0 with machine := false }

def xzgl : List Instr :=
  [.zlaunch 6 10, .zkick 8 9, .zkick 5 9, .zscan 5 10, .zcancel 8 6 10, .zpreemptHalt 8 6 10, .zpreemptResume 8 6 10, .zreset 8 10, .zjrnl 7 10,
    .zcolo 8 6 10, .zbudget 8 6 10, .zfence 7 8 10]
theorem witness_xzgl : xzgl.all (fun i => (xzglRows cc 0 i).any (·.ok) && decide (cc.Runs32 0) && (cc.cc 0).machine &&
    (xzglOf i).isSome && decide (ccUser.Runs32 0) && !(ccUser.cc 0).machine) = true := by decide +kernel
/-- csrrw, csrrs and csrrwi words: number, rs1 or immediate, funct3 and rd (Zicsr), and opcode 0x73. -/
theorem witness_csr : ([.zctkoLive 0x7C0422F3, .zjheadWrite 0x7C1492F3, .registerWrite 0x7C24D2F3, .ztrapqRead 0xFC3022F3] : List Instr).all
    (fun i => match csrRow cc 0 i with
      | some (w, a, wr, _, _) => csrNumber w == a && csrWrites w == wr
      | none => false) = true := by decide +kernel
theorem witness_zxinv : (csrNumber 0x7C349073 == 0x7C3 && csrWrites 0x7C349073) = true := by decide +kernel
/-- lui, auipc, add, mulw, xori, slli, addiw, ld and sd. -/
theorem witness_rv : ([0x400002B7, 0x00001297, 0x009402B3, 0x029402BB, 0xFFF4C293, 0x00449293, 0x0014829B, 0x0083B283, 0x0093B423] :
    List (BitVec 32)).all (fun w => (rvRow cc 0 w).isSome && (cc.cc 0).fetches) = true := by decide +kernel

/-- Flow words: jal x1, jalr x1, beq taken and not, lr.w, lr.d, sc.d with a reservation and without, amoadd.d, amomaxu.w, fence, wfi, mret,
csrrw and csrrs of mepc, csrrs of zplim, c.addi, c.j, c.mv. -/
def reserving : State := cc.setCC 0 { cc.cc 0 with reserved := some (0x40000040 / 8) }
theorem witness_rv_flow : ([0x010000EF, 0x000380E7, 0x00000463, 0x00940463, 0x1003A2AF, 0x1003B2AF, 0x1893B2AF, 0x0093B2AF, 0xE093A2AF, 0x0000000F,
    0x10500073, 0x30200073, 0x341412F3, 0x341022F3, 0x7C2022F3, 0x0405, 0xA001, 0x82A6] : List (BitVec 32)).all (fun w =>
      match rvWord w with
      | some q => (rvFlow cc 0 q.1 q.2).isSome && (rvFlow reserving 0 q.1 q.2).isSome && (cc.cc 0).fetches && decide (cc.Runs32 0)
      | none => false) = true := by decide +kernel
/-- A control core whose pc is outside its instruction memory. -/
def unfetched : State := cc.setCC 0 { cc.cc 0 with pc := 0x1000 }
/-- A fetch outside, the compressed word 0, ecall, ebreak, loads and stores of x9 = 16 (misaligned, and where no memory is), lr.d and amoadd.d
there, a word of opcode 0x7B, a CSR without meaning, a write of a read-only one; ecall, mret and a CSR in user mode. -/
theorem witness_rv_except : ((rvExcept unfetched 0 0x13).isSome && decide (unfetched.Runs32 0) &&
    ([(0, 2), (0x73, 11), (0x00100073, 3), (0x0014B283, 4), (0x0004B283, 5), (0x0094B0A3, 6), (0x0094B023, 7), (0x1004B2AF, 5), (0x0094B2AF, 7),
      (0x0000007B, 2), (0x7FF022F3, 2), (0xC0049073, 2)] : List (BitVec 32 × Nat)).all (fun q =>
        (rvExcept cc 0 q.1).map Prod.fst == some q.2) &&
    ([(0x73, 8), (0x30200073, 2), (0x341022F3, 2)] : List (BitVec 32 × Nat)).all (fun q =>
        (rvExcept ccUser 0 q.1).map Prod.fst == some q.2)) = true := by decide +kernel

/-! ### Operations that are due -/

/-- An entry of the agenda. -/
def due (ev : Ev) : Pending := ⟨100, true, 0, 0, 1, false, 100, 12, false, ev⟩
/-- The state in which its step runs. -/
def dueIn (s : State) (ev : Ev) : State := { s with turn := .event, cause := .due (due ev), agenda := due ev :: s.agenda }
/-- A row of an entry that is due has its conditions. -/
def Due (s : State) (ev : Ev) (t : State → Pending → Option EventRow) : Bool :=
  (dueIn s ev).cause == .due (due ev) && (t ((dueIn s ev).taken (due ev)) (due ev)).any (·.ok)

/-- A place in the gallery, and two folios of the carrel. -/
def place : Loc := ⟨2, 0, 0x100000100, 0x100000100⟩
def folioA : Loc := ⟨1, 0, 0, 0⟩
def folioB : Loc := ⟨1, 0, 0x8000, 0x8000⟩
theorem witness_landings : ([.land 3 (some (raw 5)) (some (raw 1)) 3, .land 8 (some (.v (vec 7 2))) none 1, .write (cellsOf 8 8 5) [(0, false)] none,
    .cas 8 0 5, .fill 40 (vec 7 2), .recipe 3 0x123, .ctxRead 2, .ctxWrite 1 5, .seed 9, .xst, .ecnt 3, .ecnt 8, .arm 2 Arrival.zero,
    .codex 1 0 true, .pipe 1 0 5, .pipe 1 1 5, .pipe 1 2 5, .pipe 4 3 5, .anchor 5, .mxst 9, .resid 1 5, .voidTaken 0] : List Ev).all
    (fun e => Due free e landings) = true := by decide +kernel
theorem witness_spill : ([.spill 6 false 40 (vec 7 2) 2 true 21 0, .spill 7 true 40 (vec 7 2) 2 true 21 0] : List Ev).all
    (fun e => Due (port (port free 6 0 0x4000) 7 0 0x4000) e spillRows) = true := by decide +kernel
theorem witness_folio_landings : ([.vac folioA, .setm place 5] : List Ev).all (fun e => Due free e folioLandings) = true := by decide +kernel
theorem witness_beat_landings : ([.pushRow 1 3 false [⟨false, 1, 0⟩], .feedSum 17 0 true [⟨5, 6, false, false, 7⟩],
    .gfeedSum 1 false 5 [⟨false, 1, 0⟩] [⟨false, 1, 0⟩], .clrSum 17, .clrAcc 1] : List Ev).all
    (fun e => Due free e beatLandings) = true := by decide +kernel
theorem witness_network : ([.redux 0 5 place 0 job1, .redux 6 5 place 0 job1, .msg 0 0 ⟨1, 2, 3, 0⟩ job1, .msg 0 1 ⟨1, 2, 3, 0⟩ job1,
    .bcast 0 0 1 0 0 5 false job1, .bcastDone 3] : List Ev).all (fun e => Due free e networkArrivals) = true := by decide +kernel

/-- A stopk command of the context's task, with and without a release. -/
def cmd (rel : Bool) : Cmd :=
  { code := 2, core := 0, ctx := 0, task := 5, job := 1, launch := job1, id := 3, releases := rel, done := false, snap := none
    frames := [(pageOf 0x10000000000, 9)], owner := (0, 0)
    flags := if rel then 0x30 else 0
    block := BitVec.ofNat 512 (0x10000000000 + 2 ^ 64 * 0x0001000100000001 + 2 ^ 128 * 0x0000004000000004 + 2 ^ 192 * 0x10000000200 +
      2 ^ 384 * 0x4000 + 2 ^ 448) }
/-- The context runs task 5 of its launch, and an engine holds a command. -/
def engine (cur shadow : Option Cmd) : State :=
  { free with
    ctl := { free.ctl with launches := [(job1.toNat, { launchZero with started := [(5, 0, 0)] })] }
    engines := if cur.isNone && shadow.isNone then [] else [((cmd false).engine, ⟨cur, shadow, []⟩)] }
theorem witness_engine_events : (Due (engine none none) (.engAcquire (cmd false)) engineEvents &&
    Due (engine none (some (cmd false))) (.engStart (cmd false).engine) engineEvents &&
    Due (engine (some (cmd false)) none) (.engEnd (cmd false).engine) engineEvents &&
    Due (engine (some (cmd true)) none) (.engEnd (cmd true).engine) engineEvents &&
    Due (engine (some (cmd true)) none) (.engRelease (cmd true)) engineEvents) = true := by decide +kernel

/-- Bank 3 is gated, or waking with a write that waits for it. -/
def gated : State := { free with banks := [(3, ⟨1, 50, []⟩)] }
def waking : State := { free with banks := [(3, ⟨2, 50, [([(0x100600000, 5)], [])]⟩)] }
theorem witness_pages_and_banks : (Due free (.walk (pageOf 0x100200000)) pagesAndBanks && Due gated (.bankWake 3) pagesAndBanks &&
    Due waking (.bankAwake 3) pagesAndBanks && waking.memOk) = true := by decide +kernel

/-- A launch with a boundary whose merge has ended. -/
def bounded (fin : Bool) : State :=
  { free with ctl := { free.ctl with launches := [(job1.toNat, { launchZero with
      started := [(5, 0, 0)], tasks := 1, boundary := some ⟨50, 64, 0, 90, false, fin, true, [], 0⟩ })] } }
/-- Its control complex holds a completed launch back. -/
def heldBack : State := { free with ctl := { free.ctl with fifo := [job1, job1] } }
theorem witness_launch_events : (Due free (.taskStart job1 6 1 0) launchEvents && Due free (.waveStart job1 6 1 0) launchEvents &&
    Due (bounded false) (.overrun job1) launchEvents && Due free (.launchDone job1) launchEvents && Due heldBack .release launchEvents &&
    Due free (.supervisor 2) launchEvents) = true := by decide +kernel
theorem witness_boundary : ([false, true].all fun f =>
    let b : Boundary := ⟨50, 64, 0, 90, false, f, true, [], 0⟩
    (dueIn (bounded f) (.boundary job1)).cause == .due (due (.boundary job1)) && ((bounded f).launch job1).boundary == some b &&
      (b.final || ((bounded f).launch job1).ended != ((bounded f).launch job1).here) && (dueIn (bounded f) (.boundary job1)).memOk) = true := by
  decide +kernel
/-- The launch is strict; tasks 5 and 6 wait for the boundary, and their closed entries of the part at 0x100000040 share byte 0. -/
def conflicting : State :=
  let entry := fun (t : BitVec 20) (d : BitVec 128) (m : BitVec 16) => (⟨0x100000040, 0x100000040, d, m, false, t⟩ : PbEntry)
  let x := bounded false
  let y := { ctxOf false with status := .waiting .boundary, pbufLaunch := job1 }
  { x with
    cores := [(0, { Core.zero with ctxs := [(0, { y with closed := [entry 5 0xA1 3] }),
      (1, { y with task := some ⟨job1, 6, false, 0, 0⟩, closed := [entry 6 0xB2 5] })] })]
    ctl := { x.ctl with launches := [(job1.toNat, { x.launch job1 with strict := true, tasks := 2, started := [(5, 0, 0), (6, 0, 1)] })] } }
theorem witness_conflict : (let s := dueIn conflicting (.boundary job1)
    s.memOk && (s.launch job1).ended != (s.launch job1).here && s.ctxsOf job1 == [(0, 0), (0, 1)] &&
      s.clashes job1 == [(5, 0x100000040, 6), (6, 0x100000040, 5)] && (s.ctx 0 0).status == .waiting .boundary &&
      ([(0, 0), (1, 0xA1), (2, 0)].all fun q => s.mergedByte job1 (0x100000040 + q.1) != 0xFF)) = true := by decide +kernel
/-- The context waits for a service. -/
def served : State := own free fun y => { y with status := .waiting (.service 12) }
/-- A trap has interrupted its wait. -/
def trapped : State := own free fun y => { y with held := some (.service 12) }
theorem witness_services_due : ([.service 1 [job1, BitVec.allOnes 64] job1, .service 1 [job1 + 1, 0x100000005] job1, .service 2 [job1, 0] job1,
    .service 3 [job1, 1] job1, .service 4 [300] job1, .service 4 [5] job1] : List Ev).all (fun e =>
      Due served e serviceEvents && Due trapped e serviceEvents) = true := by
  decide +kernel
/-- The context has done its rerun: equal signatures; unequal ones. -/
def rerun (sig : BitVec 64) : State :=
  own free fun y => { y with region := { Region.zero with stage := 2, bundles := 3, bundles1 := 3, sig := 5, sig1 := sig } }
theorem witness_control_events : (([.holdReq 1 (some 7), .holdReq 1 none, .endNotice 0 5, .preempt 0x100000000, .imageSave 0x100000000,
    .imageSave 0x100000001, .coreReset, .selfTest, .thermalPeriod, .takeover 0] : List Ev).all (fun e => Due free e controlEvents) &&
    Due (rerun 5) .rerunCompare controlEvents && Due (rerun 6) .rerunCompare controlEvents &&
    Due { free with ctl := { free.ctl with launches := [(job1.toNat, { launchZero with state := 1 })] } } (.arrival job1 5 3 none)
      controlEvents) = true := by decide +kernel

/-- An exchange of two folios, and of two leaves. -/
theorem witness_exchange : ([(false, folioA, folioB), (true, folioA, ⟨1, 0, 0x100, 0x100⟩), (false, folioA, ⟨2, 0, 0x100000000, 0x100000000⟩),
    (false, folioA, folioA), (true, place, place)] : List (Bool × Loc × Loc)).all (fun q =>
      let n := if q.1 then 256 else 16384
      free.memOk && q.2.1.pa % n == 0 && q.2.2.pa % n == 0 &&
        (q.2.1.lvl == q.2.2.lvl && q.2.1.core == q.2.2.core && q.2.1.pa == q.2.2.pa ||
          !locHits q.2.1 n q.2.2.lvl q.2.2.core q.2.2.pa n)) = true := by
  decide +kernel

/-! ### Inputs, messages and the package -/

/-- A row of an input has its conditions. -/
def Takes (s : State) (x : Input) (t : State → Input → Option EventRow) : Bool :=
  (t { s with turn := .event, cause := .input x }.quietTurn x).any (·.ok)

/-- A frame. -/
def frame : Frame := ⟨5, 0, 0, true, 0, 0, 0⟩
/-- A member of a group with a locked port; CC1 stands by. -/
def member : State :=
  { free with
    gs := { free.gs with leader := false }
    ports := [(1, { Port.zero with locked := true })]
    ctl := { free.ctl with ccs := [(1, { CC.zero with standby := true })], launches := [(job1.toNat, { launchZero with state := 1 })] }
    out := { free.out with stage := 2 } }
theorem witness_package_inputs : ([.holdRelay 90 3 2 false, .peerPacing true, .endNotice 2 9, .tuneDue 17, .tuneDue 0xFFE0, .groupDesync 33,
    .frameArrival 1 frame, .linkLockLoss 1, .clearNet false 3 4, .clearPort 1, .clearDesync, .peerStart job1 200 none,
    .farLink 3 5 true, .peerPhase job1 64, .thermalRead 90, .thermalRead 97, .thermalRead 106, .thermalRead 116, .ptpMessage 5, .fabricImageFetch 1 [1, 2, 3], .standbyError,
    .fabricEnqueue job1] : List Input).all (fun x => Takes member x packageInputs) = true := by decide +kernel
/-- Operations of a timed context in flight: a store of operation 13 and an exchange of operation 14. -/
def inFlight : State :=
  { timed with agenda := [⟨200, false, 0, 0, 3, true, 200, 13, true, .write [(0x10000000000, 5)] [] none⟩,
                          ⟨200, false, 0, 0, 1, true, 200, 14, true, .xch false folioA folioB⟩] }
theorem witness_packets : ([⟨false, 3, 4, .loadData, 0, 13⟩, ⟨false, 3, 16, .storeData, 0, 13⟩, ⟨false, 3, 4, .message, 0, 13⟩,
    ⟨false, 3, 4, .frame, 7, 0⟩, ⟨true, 3, 4, .exchangeBeat 3 8, 0, 14⟩] : List Packet).all (fun p =>
      Takes inFlight (.packetAtPort p) packageInputs &&
      Takes { inFlight with slots := [(netKey p.bulk p.router p.port, BitVec.allOnes 64)] } (.packetAtPort p) packageInputs) = true := by
  decide +kernel
theorem witness_gate : Takes { free with clock := 70000 } (.bankPowerGate 3) packageInputs = true := by decide +kernel
/-- A timed access to the stacks whose latency of 1,000 cycles was stated 64 cycles ago. -/
def stackAccess : State :=
  { timed with agenda := [⟨96 + timed.stackLat true 900 - 64, false, 0, 0, 3, false, 96 + timed.stackLat true 900 - 64, 13, true, .land 5 none none 0⟩] }
theorem witness_stacks_hold : Takes stackAccess (.stacksHoldRequest 7) packageInputs = true := by decide +kernel

/-- An image of one kernel is loaded, and a session of Callote is open. -/
def loaded : State :=
  { free with
    out := { free.out with stage := 2, session := true
                           images := [⟨0, [{ kernelZero with ctxs := [⟨0, false, 0, 1, 0x4000⟩] }], [], false, 0, []⟩] }
    ctl := { free.ctl with ccs := [(0, { CC.zero with active := true, startPc := some 3 })] } }
theorem witness_callote : ([.calloteLoad [1, 2, 3] none none, .calloteLaunch ⟨0, 0, .free, [0], [false], none, none, [], [], []⟩, .calloteBreak (.instr 1 5),
    .calloteClear true 7, .calloteRun (some 500), .calloteStep 0 0 5, .callotePrint .gstat, .callotePlace 0 [0, 0x4000], .calloteCycle,
    .calloteWatch .hold, .calloteGroup, .calloteLat 0, .calloteEnqueue job1 4 5 none 600, .calloteStart 0, .calloteInject (.tagMiss 0 0 4 5),
    .calloteInject (.register 0 0 5), .calloteInject (.bundleFetch 0 7), .calloteInject (.memoryPart 0 0x100), .calloteInject (.selfTestFail 3),
    .injectResidue 0 0 4, .injectDelay 0 0 5 6, .injectImem 1 4, .injectDrift true] : List Input).all (fun x => Takes loaded x calloteRows) = true := by
  decide +kernel

/-- A message of no key, to a package that has booted, and to one in recovery mode. -/
def message : Msg := ⟨0xFF, 0, [1, 2, 3, 4], [], [], 0x0A000001_2222⟩
def stage (n : Nat) : State := { free with out := { free.out with stage := n } }
theorem witness_unsigned : ([.statusRead message, .imageChunk message, .imageCommit message, .attestation message, .certificateRead message,
    .firmwareChunk message, .firmwareCommit message] : List Input).all (fun x => match unsignedMessages x with
      | some (_, _, fw, _, m) => m.key == 0xFF && decide (m.body.length ≤ 1400) && ((stage 1).out.stage == 1) == fw ||
          m.key == 0xFF && decide (m.body.length ≤ 1400) && ((stage 2).out.stage == 1) == fw
      | none => false) = true := by decide +kernel
/-- A message of type 0x0070, which R301 does not name. -/
theorem witness_other_message : ((stage 2).out.stage != 0 && decide ((stage 2).out.downTill ≤ (stage 2).clock) && decide ((0x0070#16).toNat < 0x8000) &&
    !([1, 2, 3, 0x10, 0x11, 0x20, 0x21, 0x30, 0x40, 0x50, 0x51, 0x60, 0x61].contains (0x0070#16).toNat)) = true := by decide +kernel
theorem witness_own_steps : (ownSteps free).all (·.ok) = true := by decide +kernel
theorem witness_boot : (bootRow State.reset.quietTurn).ok = true := by decide +kernel

/-! ### Steps -/

/-- The package of `free`, between steps. -/
def rest : State := { free with turn := .idle }
theorem witness_issue_step : (rest.inputs == [] && rest.firstDue == none && rest.boundaryNow == none && !rest.freezes && !rest.resumes &&
    rest.issuer == some (0, 0)) = true := by decide +kernel
/-- Only control core 0 has work. -/
def ccOnly : State := { cc with turn := .idle, cores := [] }
theorem witness_cc_step : (ccOnly.inputs == [] && ccOnly.firstDue == none && ccOnly.boundaryNow == none && !ccOnly.freezes && !ccOnly.resumes &&
    ccOnly.issuer == none && ((List.range 4).find? fun m => ccOnly.ccReady m (ccOnly.cc m)) == some 0 &&
    !(ccOnly.cc 0).interrupts.fetchBad) = true := by decide +kernel
/-- A request to freeze at once, and one that is over. -/
def holding (frozen : Bool) (till : Option Nat) : State :=
  { State.reset with clock := 300, count := 290, gs := { State.reset.gs with frozen := frozen, holds := [⟨0, 50, 50, till, 0, false⟩] } }
theorem witness_due_steps : ({ rest with inputs := [.boot] }.inputs == [.boot] &&
    { rest with agenda := [due .xst] }.firstDue == some (due .xst) &&
    (let s := { bounded false with count := 200, turn := .idle, agenda := [] }
     s.firstDue == none && s.boundaryNow == some job1) &&
    (holding false none).firstDue == none && (holding false none).boundaryNow == none && (holding false none).freezes &&
    (holding true (some 200)).firstDue == none && (holding true (some 200)).boundaryNow == none && !(holding true (some 200)).freezes &&
    (holding true (some 200)).resumes) = true := by decide +kernel
theorem witness_clock : (State.reset.pick.isNone && !State.reset.gs.frozen && (holding true none).pick.isNone && State.reset.gs.tune == 0) = true := by
  decide +kernel
/-- A step keeps the form of the memories: the one in which an input makes a part of the carrel poisoned. -/
theorem witness_canonical : (let s := { loaded with turn := .idle, inputs := [.calloteInject (.memoryPart 0 0x100)] }
    s.memOk && (match step s with | .next t => t.levelPoison 1 0 16 | _ => false)) = true := by decide +kernel
/-- Well-formed steps that have words. -/
theorem witness_encoded : ([.add 3 4 1, .br 0 8, .feed 5 2 17 1, .checkpoint swapCk, .zlaunch 6 10, .zpreemptResume 8 6 10,
    .controlCoreInstruction 0x009402B3] : List Instr).all (fun i => WellFormed i && (encode i).isSome) = true := by decide +kernel

/-- The public key of RFC 8032 for the secret key 00 01 … 1F, whose hash is owner key 1 (R295); the last boot count is 3. -/
def pub : List Byte := leBytes 32 0xb83155126486dc1d5f0da59b30d6e46799c04be718dd701dbe10cef3bf07a103
def keyed : State :=
  { free with out := { free.out with stage := 2, epoch := 3, fuses := Memory.writeAll [] (cellsOfBytes 0x80 (sha512 pub)) } }
/-- A message of that key: epoch 3, number 7. -/
def signed (body : List Byte) (sig : Nat) : Msg := ⟨1, 0x0000030000000007, body, leBytes 64 sig, pub, 0x0A000001_2222⟩
/-- A signed message that is accepted. -/
def Accepted (x : Input) : Bool := match signedMessages x with
  | some (_, ty, _, m) => { keyed with cause := .input x }.accepts ty m
  | none => false
theorem witness_signed_launch : Accepted (.launchRequest (signed [1, 0, 0, 0, 0, 0, 1, 0]
    0x8ace8d791e98c5deae9270295d9d24d25303e0ee68963a256da64d05ad7f33d09c561f4ef23566d6f397c4429328c3a3ea37b2a5b35adfc581b7d96c16be2c3)) = true := by decide +kernel
theorem witness_signed_cancel : Accepted (.cancel (signed [1, 0, 0, 0, 0, 0, 1, 0, 1]
    0x9ce8d8cdd36f246482458bddb83792c3180c2433c84b416e25e7ab0e0c10124a7c2ac157e541f14ecefd30a67b71cd45f55c717edac7397929e17946c289eed)) = true := by decide +kernel
theorem witness_signed_formation : Accepted (.groupFormation (signed [1, 0, 0, 0, 0, 0, 0, 0, 0, 0]
    0x7bb1c47c24730069fb26489f8f009bf22adf8d4dbc284cdb161347cf244a86cc45bc50c53083e7c2fc9bf3a9021232c130390b313fd09dae44f41108b678f6b)) = true := by decide +kernel
theorem witness_signed_dissolve : Accepted (.groupDissolve (signed []
    0x6fbfb55f4f24881087afe18f958d4f3c1ca227c45a1202eae0ff328fc28b07671154473afbcd0b5c73f8f991f28ec44795c94c25bd91e321c4b38ad36f27c80)) = true := by decide +kernel
theorem witness_signed_fuses : Accepted (.fuseProgramming (signed [65, 1, 1, 0, 7]
    0x19b2fbdb613db9a4fb5b61c9aa301135eb701c61dc3e3c65489853f468debccf813a62ac7a78369b57e164a28cc00e84c26cd49ab69bf787ce5ccdd73bb14f1)) = true := by decide +kernel
theorem witness_signed_callote : Accepted (.calloteLine (signed [99, 121, 99, 108, 101]
    0x326d0388673c900668bc9b72de9d1171f9780a003d53c0aca24a921d8e03c5d379858d50be2ebb8335ffc671e93f00a3e1cc2e864dd6c197e862e8a716e4bd)) = true := by decide +kernel

/-! ### Ill-formed steps: one for each check of WellFormed -/

theorem test_ill_formed : ([.bundleIssue 0x000D80, .checkpoint 0, .trecRead 0 0x2FF, .trecRead 0 0x041, .trecResume 0 4, .trecSkip 0 0x2FF, .move 0 3 0x200,
    .move 0 0x041 0x004, .move 0 3 0x0A0, .move 0 0 0, .move 0 0x300 4, .zctkoLive 0x7C002373, .zjheadWrite 0, .zxinvWrite 0, .ztrapqRead 0,
    .registerWrite 0, .controlCoreInstruction 0x0007850B, .add 0 0x041 0, .fadd 0 0x300 0, .fadd 0 0x30E 0, .add 0 0x102 0, .call 0 0 8, .ret 0 0, .calli 0 4 0, .loop 0 0 4 20 1 0, .loopi 0 0 4 20 1 0,
    .phaseLaunch 0 0, .phaseGroup 0 0] : List Instr).all (fun i => !WellFormed i) = true := by decide +kernel
/-- Reserved words are refused: a trigger of unit 0x0F, code 13 of lsc, code 12 of mx, a control word of operation 0x0D with an operand of
0xA, phase with a window of 0, a nonzero funct7 (R34, R45, R175, R242). -/
theorem test_reserved_words : ([(24, 0x0012F0), (24, 0x00125D), (24, 0x00134C), (32, 0x3400000A), (32, 0x48000000), (32, 0x0207850B)] :
    List (Nat × Nat)).all (fun q => decodeTableWord q.1 q.2 == none) = true := by decide +kernel

/-! ### Words of spec/ -/

/-- Moves: source in bits 19:10, guard in bits 23:20, destination in bits 9:0 (R22); a trigger is 0b1, unit and code (R34). -/
theorem test_decode_moves : ([(0x081E20, .add 0 0x207 1), (0x00123D, .bext 0 4 1), (0x001240, .mul 0 4), (0x201651, .ld8u 2 5), (0x000A60, .vld 0 2 0),
    (0x000E75, .vst 0 3 1), (0x311680, .fadd 3 0x45 0), (0x0106BE, .xcl 0 0x41 1), (0x0802C3, .vtTri 0 0x200 3), (0x0106D6, .fsqrt 0 0x41),
    (0x0106E1, .qnt 0 0x41), (0x001F01, .xchc 0 7), (0x001304, .mark 0 4), (0x001316, .arm 0 4), (0x001726, .rfadd 0 5), (0x001B2B, .sendb 0 6),
    (0x00134A, .gmode 0 4), (0x0C0354, .bundleIssue 0x0C0354), (0x0BFF50, .trecResume 0 0x2FF), (0x080DA8, .move 0 0x203 0x1A8)] : List (Nat × Instr)).all
    (fun q => decodeTableWord 24 q.1 == some q.2) = true := by decide +kernel
/-- Control words (03_scalar_control_loops, 07_vector_ops, 08_matrix_beats, 10_cores_phases). -/
theorem test_decode_control : ([(0x04803FFB, .br 2 0x3FFB), (0x1C040000, .limmh 0 0x40000), (0x2C000001, .mpush 0 1), (0x34000008, .minvElse 0),
    (0x30000000, .mpop 0), (0x38000006, .brnone 0 6), (0x24008065, .loopi 0 0 2 6 2 1), (0x48100200, .phaseGroup 0 512), (0x50000000, .cfence 0)] :
    List (Nat × Instr)).all (fun q => decodeTableWord 32 q.1 == some q.2) = true := by decide +kernel
/-- Beats (R151): their words in bits 219:192 of the bundle. -/
theorem test_decode_beats : ([(0x2549180, .feedAbsd 5 2 17 1), (0x50300C8, .gdrain 0 3 200)] : List (Nat × Instr)).all
    (fun q => decodeBundle (BitVec.ofNat 256 (q.1 * 2 ^ 192)) == q.2) = true := by decide +kernel
/-- Words of the control cores (R242). -/
theorem test_decode_xzgl : ([(0x0007850B, .zlaunch 15 10), (0x00D6100B, .zkick 13 12), (0x0006260B, .zscan 12 12), (0x0009E50B, .zjrnl 19 10),
    (0x0005F30B, .zcolo 0 11 6)] : List (Nat × Instr)).all (fun q => decodeTableWord 32 q.1 == some q.2) = true := by decide +kernel
theorem test_decode_csr : (decodeRv 0x7C031073 == .zctkoLive 0x7C031073 && decodeRv 0x7C0022F3 == .controlCoreInstruction 0x7C0022F3 &&
    decodeRv 0xFC002B73 == .controlCoreInstruction 0xFC002B73 && decodeRv 0x0207850B == .controlCoreInstruction 0x0207850B) = true := by
  decide +kernel
/-- The whole bundle of 02_bundles has more than one slot. -/
theorem test_decode_bundle : (let w : BitVec 256 := 0x01800400000000000000_0004E0493116800111400000_00081E200C0110000A60
    decodeBundle w == .bundleIssue w && decodeTableWord 24 0x000D80 == some (.move 0 3 0x180) &&
    decodeTableWord 32 0x04800008 == some (.br 2 8) && decodeTableWord 32 0x18004000 == some (.limm 0 0x4000) &&
    decodeTableWord 32 0x48000100 == some (.phaseLaunch 0 256) && decodeTableWord 32 0x0002850B == some (.zlaunch 5 10) &&
    decodeTableWord 32 0x0062850B == none) = true := by decide +kernel

/-! ### Single steps, worked by hand -/

/-- A test of the state after a step. -/
def after (i : Instr) (s : State) (f : State → Bool) : Bool := match exec i s with | .next t => f t | _ => false
/-- The value that is to land in latch z of a scalar unit. -/
def toLand (t : State) (f v : Nat) : Bool := t.agenda.any fun p => p.ev == .land f (some (raw (BitVec.ofNat 64 v))) none 0
/-- S11 and S12 hold values. -/
def with11 (s : State) (a b : Nat) : State :=
  regs s fun r => (r.wrS 11 ⟨BitVec.ofNat 64 a, 0, false⟩).wrS 12 ⟨BitVec.ofNat 64 b, 0, false⟩

/-- R41's example: bext of 4 bits from bit 16 of 0xABCD_1234 is 0xD. -/
theorem test_bext : after (.bext 0 11 1) (port (with11 free 0x0410 0) 2 0 0xABCD1234) (fun t => toLand t 2 0xD) = true := by decide +kernel
/-- R42's table: the high half of the square of 2^64 - 1. -/
theorem test_mulhu : after (.mulhu 0 7) (port free 4 0 0xFFFFFFFFFFFFFFFF) (fun t => toLand t 4 0xFFFFFFFFFFFFFFFE) = true := by decide +kernel
/-- R43: 5 divided by 0 is all ones, and the context goes on to the next bundle with one less of its budget. -/
theorem test_divu_zero : after (.divu 0 0) (port free 4 0 5) (fun t => toLand t 4 0xFFFFFFFFFFFFFFFF && (t.ctx 0 0).pc == 22 &&
    (t.ctx 0 0).regs.budget == 99) = true := by decide +kernel
/-- 13 - 7, from port a (R40). -/
theorem test_sub : after (.sub 0 4 0) (port free 0 0 13) (fun t => toLand t 0 6) = true := by decide +kernel
/-- R49's example: a branch of -5. -/
theorem test_branch_back : after (.br 0 0x3FFB) free (fun t => (t.ctx 0 0).pc == 16) = true := by decide +kernel
/-- R29: S1 and S2 change places in one bundle. -/
theorem test_swap : after (.bundleIssue swap) free (fun t => ((t.ctx 0 0).regs.rdS 1).val == 0x100000000 && ((t.ctx 0 0).regs.rdS 2).val == 0x4000)
    = true := by decide +kernel
/-- A store of 0x1234 to the carrel: two bytes, the low one first (R13). -/
theorem test_store : after (.st16 0 11) (port (with11 free 0x1234 0) 5 1 0x100) (fun t => t.agenda.any fun p => match p.ev with
    | .write cells _ _ => cells == [(0x100, 0x34), (0x101, 0x12)]
    | _ => false) = true := by decide +kernel
/-- The word 0x01_1140 in slot 2: the record has class 1 and the mask 0x004 (R33, R274). -/
theorem test_illegal : after (.bundleIssue (0x011140 <<< 48)) free (fun t => (t.ctx 0 0).record.valid &&
    ((mget (t.ctx 0 0).record.words 0 0).extractLsb' 26 6) == 1 && ((mget (t.ctx 0 0).record.words 0 0).extractLsb' 0 13) == 21) = true := by
  decide +kernel
/-- 1.0 + 2.0 is 3.0 in every lane (R96). -/
theorem test_fadd : after (.fadd 0 0x41 0) (regs free fun r => (r.wrV 1 (vec (ofLanes fun _ => 0x3F800000) 2)).wrVP 8 0
    (vec (ofLanes fun _ => 0x40000000) 2)) (fun t => t.agenda.any fun p => match p.ev with
    | .land 8 (some (.v z)) _ _ => z.bits == ofLanes (fun _ => 0x40400000) && z.tag == 2
    | _ => false) = true := by decide +kernel
/-- A set of kick bit 16 (R242). -/
theorem test_kick : after (.zkick 8 9) cc (fun t => t.ctl.kick.getLsbD 16 && (t.cc 0).pc == 4) = true := by decide +kernel
/-- addi x5, x9, -1 with x9 = 16. -/
theorem test_addi : after (.controlCoreInstruction 0xFFF48293) cc (fun t => mget (t.cc 0).x 0 5 == 15) = true := by decide +kernel
/-- A halt ends the issue of its task (R55). -/
theorem test_halt : after (.halt 0) timed (fun t => (t.ctx 0 0).status == .halted) = true := by decide +kernel
/-- setm at its landing: the folio's mark, and xcnt (R82). -/
theorem test_setm : after .exchangeCompletion (dueIn free (.setm place 5)) (fun t => t.markAt place == 5 && (t.ctx 0 0).regs.xcnt == 1) = true := by
  decide +kernel

end Sys2Proof.Tests
end

section
/-! The scalar units sa0, sa1 and sm (R39 to R43): the rows of R40, R41 and R42 in terms of the model's operations, and what every operation
of a scalar unit does at its issue. -/

namespace Sys2Proof.Machine

/-! ### The values of R40 and R41 -/

theorem shiftCount_eq_mod (t : Word) : (t.extractLsb' 0 6).toNat = t.toNat % 64 :=
  BitVec.extractLsb'_toNat ..

/-- A choice by a strict order is that by the weak one, when it does not matter for equals. -/
theorem ite_lt_eq_ite_le {α β : Type} [LinearOrder α] {x y : α} {p q : β} (h : x = y → p = q) :
    (if x < y then p else q) = if x ≤ y then p else q := by
  rcases lt_trichotomy x y with hlt | heq | hgt
  · simp [hlt, hlt.le]
  · simp [heq, h heq]
  · simp [hgt.not_gt, hgt.not_ge]

theorem minSigned_eq (a t : Word) : (if a.slt t then a else t) = if a.toInt ≤ t.toInt then a else t := by
  simpa only [BitVec.slt_iff_toInt_lt] using ite_lt_eq_ite_le fun h => BitVec.toInt_inj.mp h

theorem maxSigned_eq (a t : Word) : (if a.slt t then t else a) = if a.toInt ≤ t.toInt then t else a := by
  simpa only [BitVec.slt_iff_toInt_lt] using ite_lt_eq_ite_le fun h => (BitVec.toInt_inj.mp h).symm

theorem minUnsigned_eq (a t : Word) : (if a.ult t then a else t) = if a.toNat ≤ t.toNat then a else t := by
  simpa only [BitVec.ult_iff_toNat_lt] using ite_lt_eq_ite_le fun h => BitVec.toNat_inj.mp h

theorem maxUnsigned_eq (a t : Word) : (if a.ult t then t else a) = if a.toNat ≤ t.toNat then t else a := by
  simpa only [BitVec.ult_iff_toNat_lt] using ite_lt_eq_ite_le fun h => (BitVec.toNat_inj.mp h).symm

/-- The word that hi joins from two halves is the OR of R40. -/
theorem joinHalves_eq (a t : Word) : t.extractLsb' 0 32 ++ a.extractLsb' 0 32 = (t <<< 32) ||| (a &&& 0xFFFFFFFF#64) := by
  have hhigh : (t.toNat % 2 ^ 32) <<< 32 = t.toNat <<< 32 % 2 ^ 64 := by
    simp only [Nat.shiftLeft_eq]
    omega
  have hlow : a.toNat % 2 ^ 32 = a.toNat &&& 0xFFFFFFFF := (Nat.and_two_pow_sub_one_eq_mod _ 32).symm
  apply BitVec.eq_of_toNat_eq
  rw [BitVec.toNat_append, BitVec.extractLsb'_toNat, BitVec.extractLsb'_toNat, Nat.shiftRight_zero, Nat.shiftRight_zero, hhigh, hlow]
  rfl

theorem flag_eq_oneIf {b : Bool} {p : Prop} [Decidable p] (h : b = true ↔ p) : flag b = oneIf p := by
  simp [flag, oneIf, h]

theorem sext_eq_signExtend (t : Word) (n : Nat) : sext t n = (t.setWidth n).signExtend 64 := by
  simp [sext, BitVec.signExtend]

theorem zext_eq_setWidth (t : Word) (n : Nat) : zext t n = (t.setWidth n).setWidth 64 :=
  BitVec.eq_of_toNat_eq (by simp [zext])

theorem fieldPos_eq_fieldAt (t : Word) : fieldPos t = fieldAt t := shiftCount_eq_mod t

theorem fieldMask_eq_maskOf (t : Word) : fieldMask t = maskOf (fieldWidth t) := by
  simp [fieldMask, maskOf, fieldWidth, Nat.shiftRight_eq_div_pow]

theorem sat64_eq_clamp (x : Int) : sat64 x = BitVec.ofInt 64 (max (-(2 ^ 63)) (min (2 ^ 63 - 1) x)) := by
  unfold sat64
  split_ifs with hover hunder
  · rw [min_eq_left (by omega), max_eq_right (by omega)]
  · rw [min_eq_right (by omega), max_eq_left (by omega)]
  · rw [min_eq_right (by omega), max_eq_right (by omega)]

/-! ### The values of R42 and R43 -/

theorem highHalf_ofInt (p : Int) : BitVec.ofInt 64 (p / 2 ^ 64) = (BitVec.ofInt 128 p).extractLsb' 64 64 := by
  apply BitVec.eq_of_toNat_eq
  simp only [BitVec.toNat_ofInt, BitVec.extractLsb'_toNat, Nat.shiftRight_eq_div_pow]
  omega

theorem highHalf_ofNat (p : Nat) : BitVec.ofNat 64 (p / 2 ^ 64) = (BitVec.ofNat 128 p).extractLsb' 64 64 := by
  apply BitVec.eq_of_toNat_eq
  simp only [BitVec.toNat_ofNat, BitVec.extractLsb'_toNat, Nat.shiftRight_eq_div_pow]
  omega

/-- A signed remainder is what its quotient leaves of the dividend, -2^63 by -1 included. -/
theorem ofInt_tmod (a t : Word) : BitVec.ofInt 64 (a.toInt.tmod t.toInt) = a - t * BitVec.ofInt 64 (a.toInt.tdiv t.toInt) := by
  rw [Int.tmod_def, Int.sub_eq_add_neg, BitVec.ofInt_add, BitVec.ofInt_neg, BitVec.ofInt_mul, BitVec.ofInt_toInt, BitVec.ofInt_toInt,
    BitVec.sub_eq_add_neg]

/-- An unsigned remainder is what its quotient leaves of the dividend. -/
theorem umod_eq_sub (a t : Word) : a % t = a - t * BitVec.ofNat 64 (a.toNat / t.toNat) := by
  rw [eq_sub_iff_add_eq]
  apply BitVec.eq_of_toNat_eq
  simp [Nat.mod_add_div, Nat.mod_eq_of_lt a.isLt]

theorem srem_eq (a t : Word) : srem a t = if t = 0 then a else a - t * BitVec.ofInt 64 (a.toInt.tdiv t.toInt) := by
  rw [srem, ofInt_tmod]

theorem udiv_eq (a t : Word) : udiv a t = if t = 0 then BitVec.allOnes 64 else BitVec.ofNat 64 (a.toNat / t.toNat) := by
  rw [udiv, BitVec.udiv_def]

theorem urem_eq (a t : Word) : urem a t = if t = 0 then a else a - t * BitVec.ofNat 64 (a.toNat / t.toNat) := by
  rw [urem, umod_eq_sub]

/-! ### What an operation of a scalar unit does -/

/-- An operation of sa0 or sa1 with clean operands lands its result one cycle later (R39). -/
theorem saOp_run {s : State} {c k f m : Nat} {x d : BitVec 10} {t : SVal} (fn : Word → Word → Word → Word)
    (ha : (s.pS c k f 0).Clean) (hb : (s.pS c k f 1).Clean) (ht : t.Clean) :
    (saOp f fn).run (s.lone c k m x d) (.s t) s =
      .ok (s.lands c k f 1 (some (raw (fn (s.pS c k f 0).val (s.pS c k f 1).val t.val))) none 0) := by
  refine opLand_ok f 1 _ none 0 (s.lone c k m x d) s (checkUses_ok ?_ ?_)
  · simp
  · simpa using ⟨useS_bad 0 ha, useS_bad 1 hb, useS_bad 4 ht⟩

/-- An operation of sm with clean operands lands its result after its latency (R42). -/
theorem smOp_run {s : State} {c k m : Nat} {x d : BitVec 10} {t : SVal} (lat : Nat) (fn : Word → Word → Word)
    (ha : (s.pS c k 4 0).Clean) (ht : t.Clean) :
    (smOp lat fn).run (s.lone c k m x d) (.s t) s =
      .ok (s.lands c k 4 lat (some (raw (fn (s.pS c k 4 0).val t.val))) none 0) := by
  refine opLand_ok 4 lat _ none 0 (s.lone c k m x d) s (checkUses_ok ?_ ?_)
  · simp
  · simpa using ⟨useS_bad 0 ha, useS_bad 4 ht⟩

/-- A row of a scalar unit as a row of any unit: its operands are clean, it makes no access, and its result lands. -/
def ScalarRow.unitRow (r : ScalarRow) (s : State) (c k : Nat) : UnitRow :=
  ⟨r.g, r.x, r.unit, r.code, [], (!r.a || (s.pS c k r.unit 0).fine) && (!r.b || (s.pS c k r.unit 1).fine) && (s.src c k r.x).fine,
    s.lands c k r.unit r.lat (some (raw (r.z (s.pS c k r.unit 0).val (s.pS c k r.unit 1).val (s.src c k r.x).val))) none 0⟩

theorem ScalarRow.unitRow_ok {r : ScalarRow} {s : State} {c k : Nat} : (r.unitRow s c k).ok = true ↔
    (r.a = true → (s.pS c k r.unit 0).Clean) ∧ (r.b = true → (s.pS c k r.unit 1).Clean) ∧ (s.src c k r.x).Clean := by
  simp only [ScalarRow.unitRow, SVal.fine, SVal.Clean, Bool.and_eq_true, Bool.or_eq_true, Bool.not_eq_true', and_assoc]
  cases r.a <;> cases r.b <;> simp

theorem Env.clear_nil (e : Env) : e.Clear [] :=
  ⟨rfl, by simp [Env.behindOwn, Env.crowds_nil], by simp [Env.missing], by simp [Env.asleep]⟩

theorem bursting_eq_false {s : State} {c k f : Nat} (h : f ≠ 6 ∧ f ≠ 7) : s.bursting c k [f] = false := by
  simp [State.bursting, h.1, h.2]

/-- A row of a scalar unit holds when it holds as a row of any unit: sa0, sa1 and sm make no burst, and none is of mx. -/
theorem scalar_of_runs {s : State} {c k : Nat} {i : Instr} {r : ScalarRow} (hunit : r.unit < 6)
    (h : s.Runs c k i (r.unitRow s c k)) : s.Scalar c k i r := fun htrig ha hb ht =>
  h htrig (Env.clear_nil _) (fun h20 => absurd h20 (by simp only [ScalarRow.unitRow]; omega))
    (bursting_eq_false (by simp only [ScalarRow.unitRow]; omega)) (ScalarRow.unitRow_ok.mpr ⟨ha, hb, ht⟩)

/-- A trigger of a scalar unit is neither a burst nor sbase. -/
theorem lone_breaks_scalar {s : State} {c k f n : Nat} {x : BitVec 10} (hf : f < 5) (hn : n < 16) :
    (s.lone c k 0 x (trigCode f n)).breaksBurst = false := by
  have htoNat : (trigCode f n).toNat = 0x200 + 16 * f + n := trigCode_toNat (by omega)
  refine lone_breaks s c k 0 x _ ?_ ?_
  · have hpage : (0x200 + 16 * f + n - 0x200) / 16 = f := by omega
    rw [trigUnit, htoNat, hpage]
    interval_cases f <;> decide
  · intro hsbase
    have h355 : (0x355#10).toNat = 0x355 := rfl
    rw [hsbase] at htoNat
    omega

/-- A row of a scalar unit holds when its step issues the operation `o` from page `f` and code `n`, and `o`, its operands clean, lands the
row's result. -/
theorem scalar_of_run {s : State} {c k : Nat} {i : Instr} {r : ScalarRow} {d : BitVec 10} {o : Op}
    (he : exec i s = .next (issue (bundleOfOp r.g r.x d (some o)) s)) {run : Env → LVal → State → Except Trap State}
    (ho : o = Op.plain run) (f n : Nat) (hd : d = trigCode f n) (hf : f < 5) (hn : n < 16) (hu : 16 * r.unit + r.code = 16 * f + n)
    (hi : (trigInstr f n 0 r.x).isSome = true) (hfu : fuOf f = r.unit)
    (hrun : (r.a = true → (s.pS c k r.unit 0).Clean) → (r.b = true → (s.pS c k r.unit 1).Clean) → (s.src c k r.x).Clean →
      o.run (s.lone c k (slotOf (trigCode f n)) r.x (trigCode f n)) (.s (s.src c k r.x)) s = .ok (r.unitRow s c k).post) :
    s.Scalar c k i r := by
  have hunit : r.unit < 6 := by omega
  have hclass : trigClass f = true := by interval_cases f <;> rfl
  have hbreaks := lone_breaks_scalar (s := s) (c := c) (k := k) (x := r.x) hf hn
  have hsource : (s.env c k 0).source (trigClass f) r.x = .s (s.src c k r.x) := by rw [hclass]; rfl
  refine scalar_of_runs hunit (runs_plain he ho f n hd (by omega) hn hu hi hfu (by omega) (by omega)
    (fun _ hv => by simp [hclass] at hv) (fun _ => hbreaks) rfl fun hissues hok => ?_)
  obtain ⟨ha, hb, ht⟩ := ScalarRow.unitRow_ok.mp hok
  obtain ⟨-, -, -, -, -, hbad, hopen, -⟩ := hissues
  subst ho
  exact ⟨hsource ▸ hrun ha hb ht, hopen, hbad⟩

/-! ### The triggers of R40 to R42 -/

/-- The trigger codes of both pages of sa0 and sa1, the unit in bit 5. -/
theorem saTrigger_eq_trigCode : ∀ o < 32, ∀ u : BitVec 1,
    BitVec.ofNat 10 (0x200 + o) ||| (u.zeroExtend 10 <<< 5) = trigCode (2 * u.toNat + o / 16) (o % 16) := by decide

theorem isSome_trigInstr_sa {f n : Nat} (hf : f < 4) (hn : n < 16) (x : BitVec 10) : (trigInstr f n 0 x).isSome = true := by
  interval_cases f <;> interval_cases n <;> rfl

theorem isSome_trigInstr_sm {n : Nat} (hn : n < 8) (x : BitVec 10) : (trigInstr 4 n 0 x).isSome = true := by
  interval_cases n <;> rfl

theorem fuOf_saPage : ∀ u : BitVec 1, ∀ p < 2, fuOf (2 * u.toNat + p) = 2 * u.toNat := by decide

/-- An operation of sa0 or sa1 does what the row with its function says; `o` is its operation with the page in bit 4 (R39). -/
theorem scalar_sa {s : State} {c k : Nat} {i : Instr} {g : BitVec 4} {x : BitVec 10} {u : BitVec 1} {fn z : Word → Word → Word → Word}
    (o : Nat) (he : exec i s =
      .next (issue (bundleOfOp g x (BitVec.ofNat 10 (0x200 + o) ||| (u.zeroExtend 10 <<< 5)) (some (saOp (2 * u.toNat) fn))) s))
    (ho : o < 32) (hz : ∀ a b t, fn a b t = z a b t) : s.Scalar c k i ⟨g, x, 2 * u.toNat, o, 1, true, true, z⟩ := by
  obtain rfl : fn = z := funext fun a => funext fun b => funext fun t => hz a b t
  have hu := u.isLt
  exact scalar_of_run he rfl _ _ (saTrigger_eq_trigCode o ho u) (by omega) (by omega) (by simp only; omega)
    (isSome_trigInstr_sa (by omega) (by omega) x) (fuOf_saPage u _ (by omega)) fun ha hb ht => saOp_run fn (ha rfl) (hb rfl) ht

/-- An operation of sm does what the row with its function and latency says (R42). -/
theorem scalar_sm {s : State} {c k : Nat} {i : Instr} {g : BitVec 4} {x : BitVec 10} {lat : Nat} {fn z : Word → Word → Word}
    (o : Nat) (he : exec i s = .next (issue (bundleOfOp g x (trigCode 4 o) (some (smOp lat fn))) s)) (ho : o < 8)
    (hz : ∀ a t, fn a t = z a t) : s.Scalar c k i ⟨g, x, 4, o, lat, true, false, fun a _ t => z a t⟩ := by
  obtain rfl : fn = z := funext fun a => funext fun t => hz a t
  exact scalar_of_run he rfl 4 o rfl (by omega) (by omega) rfl (isSome_trigInstr_sm ho x) rfl
    fun ha _ ht => smOp_run lat fn (ha rfl) ht

/-! ### The obligations -/

/-- Settles O24: each operation of R40 has the trigger and the value of its row. -/
theorem scalarPageA : Obligations.ScalarPageA := by
  unfold Obligations.ScalarPageA
  intro s c k i r h
  cases i with
  | add g x u =>
    cases h
    exact scalar_sa 0 rfl (by decide) fun _ _ _ => rfl
  | sub g x u =>
    cases h
    exact scalar_sa 1 rfl (by decide) fun _ _ _ => rfl
  | and g x u =>
    cases h
    exact scalar_sa 2 rfl (by decide) fun _ _ _ => rfl
  | or g x u =>
    cases h
    exact scalar_sa 3 rfl (by decide) fun _ _ _ => rfl
  | xor g x u =>
    cases h
    exact scalar_sa 4 rfl (by decide) fun _ _ _ => rfl
  | andn g x u =>
    cases h
    exact scalar_sa 5 rfl (by decide) fun _ _ _ => rfl
  | shl g x u =>
    cases h
    exact scalar_sa 6 rfl (by decide) fun a _ t => congrArg (a <<< ·) (shiftCount_eq_mod t)
  | shr g x u =>
    cases h
    exact scalar_sa 7 rfl (by decide) fun a _ t => congrArg (a >>> ·) (shiftCount_eq_mod t)
  | sar g x u =>
    cases h
    exact scalar_sa 8 rfl (by decide) fun a _ t => congrArg a.sshiftRight (shiftCount_eq_mod t)
  | min g x u =>
    cases h
    exact scalar_sa 9 rfl (by decide) fun a _ t => minSigned_eq a t
  | max g x u =>
    cases h
    exact scalar_sa 10 rfl (by decide) fun a _ t => maxSigned_eq a t
  | minu g x u =>
    cases h
    exact scalar_sa 11 rfl (by decide) fun a _ t => minUnsigned_eq a t
  | maxu g x u =>
    cases h
    exact scalar_sa 12 rfl (by decide) fun a _ t => maxUnsigned_eq a t
  | sel g x u =>
    cases h
    exact scalar_sa 13 rfl (by decide) fun _ _ _ => rfl
  | pass g x u =>
    cases h
    exact scalar_sa 14 rfl (by decide) fun _ _ _ => rfl
  | hi g x u =>
    cases h
    exact scalar_sa 15 rfl (by decide) fun a _ t => joinHalves_eq a t
  | _ => cases h

/-- Settles O25: each operation of R41 has the trigger and the value of its row. -/
theorem scalarPageB : Obligations.ScalarPageB := by
  unfold Obligations.ScalarPageB
  intro s c k i r h
  cases i with
  | ceq g x u =>
    cases h
    exact scalar_sa 16 rfl (by decide) fun _ _ _ => flag_eq_oneIf beq_iff_eq
  | cne g x u =>
    cases h
    exact scalar_sa 17 rfl (by decide) fun _ _ _ => flag_eq_oneIf bne_iff_ne
  | clt g x u =>
    cases h
    exact scalar_sa 18 rfl (by decide) fun _ _ _ => flag_eq_oneIf BitVec.slt_iff_toInt_lt
  | cltu g x u =>
    cases h
    exact scalar_sa 19 rfl (by decide) fun _ _ _ => flag_eq_oneIf BitVec.ult_iff_toNat_lt
  | cle g x u =>
    cases h
    exact scalar_sa 20 rfl (by decide) fun _ _ _ => flag_eq_oneIf BitVec.sle_iff_toInt_le
  | cleu g x u =>
    cases h
    exact scalar_sa 21 rfl (by decide) fun _ _ _ => flag_eq_oneIf BitVec.ule_iff_toNat_le
  | clz g x u =>
    cases h
    exact scalar_sa 22 rfl (by decide) fun _ _ _ => rfl
  | ctz g x u =>
    cases h
    exact scalar_sa 23 rfl (by decide) fun _ _ _ => rfl
  | popc g x u =>
    cases h
    exact scalar_sa 24 rfl (by decide) fun _ _ _ => rfl
  | sx8 g x u =>
    cases h
    exact scalar_sa 25 rfl (by decide) fun _ _ t => sext_eq_signExtend t 8
  | sx16 g x u =>
    cases h
    exact scalar_sa 26 rfl (by decide) fun _ _ t => sext_eq_signExtend t 16
  | sx32 g x u =>
    cases h
    exact scalar_sa 27 rfl (by decide) fun _ _ t => sext_eq_signExtend t 32
  | zx32 g x u =>
    cases h
    exact scalar_sa 28 rfl (by decide) fun _ _ t => zext_eq_setWidth t 32
  | bext g x u =>
    cases h
    exact scalar_sa 29 rfl (by decide) fun _ _ t => by rw [fieldPos_eq_fieldAt, fieldMask_eq_maskOf]
  | bins g x u =>
    cases h
    exact scalar_sa 30 rfl (by decide) fun _ _ t => by rw [fieldPos_eq_fieldAt, fieldMask_eq_maskOf]
  | adds g x u =>
    cases h
    exact scalar_sa 31 rfl (by decide) fun a _ t => sat64_eq_clamp (a.toInt + t.toInt)
  | _ => cases h

/-- Settles O26: each operation of sm has the trigger, the latency and the value of its row, by zero too. -/
theorem scalarMultiplyDivide : Obligations.ScalarMultiplyDivide := by
  unfold Obligations.ScalarMultiplyDivide
  intro s c k i r h
  cases i with
  | mul g x =>
    cases h
    exact scalar_sm 0 rfl (by decide) fun _ _ => rfl
  | mulh g x =>
    cases h
    exact scalar_sm 1 rfl (by decide) fun a t => highHalf_ofInt (a.toInt * t.toInt)
  | mulhu g x =>
    cases h
    exact scalar_sm 2 rfl (by decide) fun a t => highHalf_ofNat (a.toNat * t.toNat)
  | div g x =>
    cases h
    exact scalar_sm 3 rfl (by decide) fun _ _ => rfl
  | divu g x =>
    cases h
    exact scalar_sm 4 rfl (by decide) udiv_eq
  | rem g x =>
    cases h
    exact scalar_sm 5 rfl (by decide) srem_eq
  | remu g x =>
    cases h
    exact scalar_sm 6 rfl (by decide) urem_eq
  | mix g x =>
    cases h
    exact scalar_sm 7 rfl (by decide) fun _ _ => rfl
  | _ => cases h

end Sys2Proof.Machine
end
